-- ==== Sys2Proof/Word.lean ====
section
/-! DEFINITION. The value types of 00_scope.md R13 and the two three-axis records. -/

namespace Sys2Proof

/-- `u8` (R13). -/
abbrev Byte := BitVec 8
/-- `i16` (R13), the pattern of a raw axis value (30_encoding.md R96). -/
abbrev I16 := BitVec 16
/-- `i32` (R13), width `INT_W` = 32 (R11). -/
abbrev I32 := BitVec 32
/-- `u32` (R13), a time value of width `TIME_W` = 32 (R11, 30_encoding.md R99). -/
abbrev U32 := BitVec 32
/-- `f32` (R13): an IEEE 754 binary32 value held as its pattern. -/
abbrev F32 := BitVec 32

/-- A value per sensor axis, named as the sensor port names them (20_memory.md R62). -/
structure XYZ (α : Type) where
  x : α
  y : α
  z : α
  deriving DecidableEq, Repr

/-- A value per lane: east, north, zenith (45_orchestrator.md R204). -/
structure Lanes (α : Type) where
  e : α
  n : α
  z : α
  deriving DecidableEq, Repr

/-- The same function in every lane: lanes share nothing (R204). -/
def Lanes.map {α β : Type} (f : α → β) (v : Lanes α) : Lanes β :=
  { e := f v.e, n := f v.n, z := f v.z }

/-- A function of two lane values, lane by lane (R204). -/
def Lanes.zip {α β γ : Type} (f : α → β → γ) (v : Lanes α) (w : Lanes β) : Lanes γ :=
  { e := f v.e w.e, n := f v.n w.n, z := f v.z w.z }

end Sys2Proof
end

