-- ==== Sys2Proof/Config.lean ====
section
/-! DEFINITION. Constants of 00_scope.md R8, the open parameters of R10, the numerics record of
42_highpass.md R141, the input pins of 20_memory.md R62, and the free values of the model. -/

namespace Sys2Proof

namespace Config

/-- Slots of a packet buffer (10_state.md R37). The built `samplesPerPacket` equals it (`Config.SizesAgree`). -/
abbrev bufferSlots : Nat := 5
/-- Bytes of the packet register (10_state.md R38). The built `packetLen` equals it. -/
abbrev packetBytesTotal : Nat := 66
/-- Lanes of the data path (45_orchestrator.md R204). The built `axes` equals it. -/
abbrev laneCount : Nat := 3

end Config

/-- `HPF_NUMERICS` (42_highpass.md R141): five total functions and one constant. The default record is
`Machine.binary32`. -/
structure HpfNumerics where
  fadd : F32 → F32 → F32
  fsub : F32 → F32 → F32
  fmul : F32 → F32 → F32
  i2f : I32 → F32
  f2i : F32 → I32
  /-- `ALPHA_BITS` (00_scope.md R11, 42_highpass.md R148). -/
  alphaBits : F32 := 0x3F7EB852

/-- The configuration record of 00_scope.md R8, R10, R11: the constants, with the source's values as defaults, the
numerics, and the three open parameters with the constraints of R10 as proofs (30_encoding.md R102), so that no record
with an illegal parameter can be built. `INTERVAL` is `Config.interval`. -/
structure Config where
  /-- `SAMPLE_RATE_HZ`. -/
  sampleRateHz : Nat := 50
  /-- `CALIBRATION_SAMPLES`. -/
  calibrationSamples : Nat := 200
  /-- `STILL_THRESHOLD`. -/
  stillThreshold : Nat := 1000
  /-- `ALPHA`, the number that `numerics.alphaBits` rounds. -/
  alpha : Rat := 995 / 1000
  /-- `SAMPLES_PER_PACKET`. -/
  samplesPerPacket : Nat := 5
  /-- `AXES`. -/
  axes : Nat := 3
  /-- `PACKET_LEN`. -/
  packetLen : Nat := 66
  /-- `HEADER0`. -/
  header0 : Byte := 0xFC
  /-- `HEADER1`. -/
  header1 : Byte := 0x1B
  /-- `RESERVED_BYTE` (30_encoding.md R101). -/
  reservedByte : Byte := 0x00
  /-- `TEMP_PERIOD`. -/
  tempPeriod : Nat := 50
  /-- `HPF_NUMERICS` with `ALPHA_BITS` (R11). -/
  numerics : HpfNumerics
  /-- `WINDOW_N` (R10). -/
  windowN : Nat
  /-- `WARMUP_US` (R10). -/
  warmupUs : Nat
  /-- `CAL_DELAY_US` (R10). -/
  calDelayUs : Nat
  windowN_pos : 1 ≤ windowN
  windowN_le : windowN ≤ 65536
  warmupUs_lt : warmupUs < 2 ^ 31
  calDelayUs_lt : calDelayUs < 2 ^ 31

/-- Why parameter values are refused at configuration time (30_encoding.md R102). -/
inductive ParameterError where
  /-- `WINDOW_N` is 0 or above 65536 (00_scope.md R10). -/
  | windowN
  /-- `WARMUP_US` is `2^31` or more (R10). -/
  | warmupUs
  /-- `CAL_DELAY_US` is `2^31` or more (R10). -/
  | calDelayUs
  deriving DecidableEq, Repr

namespace Config

/-- `INTERVAL` = `1_000_000 / SAMPLE_RATE_HZ`, integer division (R9, 43_scheduler.md R160). -/
def interval (c : Config) : Nat := 1000000 / c.sampleRateHz

/-- The constraints of R10 on parameter values: the hardware is built for no others (30_encoding.md R102). -/
def LegalParameters (windowN warmupUs calDelayUs : Nat) : Prop :=
  1 ≤ windowN ∧ windowN ≤ 65536 ∧ warmupUs < 2 ^ 31 ∧ calDelayUs < 2 ^ 31

/-- A configuration's parameters meet the constraints. -/
def Legal (c : Config) : Prop := LegalParameters c.windowN c.warmupUs c.calDelayUs

/-- Every configuration is legal, by the proofs it carries. -/
theorem legal (c : Config) : c.Legal := ⟨c.windowN_pos, c.windowN_le, c.warmupUs_lt, c.calDelayUs_lt⟩

/-- Configuration time (R102): the record for the given parameters with the constants of R8, or a refusal that names the
first illegal parameter. -/
def ofParameters (numerics : HpfNumerics) (windowN warmupUs calDelayUs : Nat) : Except ParameterError Config :=
  if hn : 1 ≤ windowN ∧ windowN ≤ 65536 then
    if hw : warmupUs < 2 ^ 31 then
      if hd : calDelayUs < 2 ^ 31 then
        .ok
          { numerics := numerics
            windowN := windowN
            warmupUs := warmupUs
            calDelayUs := calDelayUs
            windowN_pos := hn.1
            windowN_le := hn.2
            warmupUs_lt := hw
            calDelayUs_lt := hd }
      else .error .calDelayUs
    else .error .warmupUs
  else .error .windowN

/-- The fixed sizes agree: the arrays of `Machine.Registers` are those the constants of R8 name, and a packet is two
header bytes, for each axis its samples and a checksum byte, and the reserved byte (30_encoding.md R91). -/
def SizesAgree (c : Config) : Prop :=
  c.samplesPerPacket = bufferSlots ∧ c.axes = laneCount ∧ c.packetLen = packetBytesTotal ∧
    c.packetLen = 2 + c.axes * (4 * c.samplesPerPacket + 1) + 1

/-- `WINDOW_N - 1`: the spec gives no value for `WINDOW_N`, only its range 1 to 65536 (R10), which the type carries.
OPEN; DESIGN CHOICE, log 10. -/
opaque openWindowN : Fin 65536

/-- `WARMUP_US`: the spec gives no value, only the range below `2^31` (R10), which the type carries. OPEN; DESIGN CHOICE, log 10. -/
opaque openWarmupUs : BitVec 31

/-- `CAL_DELAY_US`: the spec gives no value, only the range below `2^31` (R10), which the type carries. OPEN; DESIGN CHOICE, log 10. -/
opaque openCalDelayUs : BitVec 31

/-- The width of `wr_pos` for `WINDOW_N = n`: `ceil(log2(n))` bits, one for `n = 1` (10_state.md R35). For `n >= 2` the
ceiling is the number of binary digits of `n - 1`. -/
def wrPosWidth (n : Nat) : Nat := Nat.log2 (n - 1) + 1

end Config

/-- The input pins of 20_memory.md R62 as they stand at one clock edge. The output pins are `Machine.OutPins`. -/
structure Pins where
  /-- `rst`. -/
  rst : Bool
  /-- `cfg_hpf_i`. -/
  cfgHpf : Bool
  /-- `cfg_dyn_i`. -/
  cfgDyn : Bool
  /-- `now_us_i`. -/
  now : U32
  /-- `init_ack_i`. -/
  initAck : Bool
  /-- `acc_valid_i`. -/
  accValid : Bool
  /-- `acc_x_i`. -/
  accX : I16
  /-- `acc_y_i`. -/
  accY : I16
  /-- `acc_z_i`. -/
  accZ : I16
  /-- `acc_err_i`. -/
  accErr : Bool
  /-- `tmp_valid_i`. -/
  tmpValid : Bool
  /-- `tmp_data_i`. -/
  tmpData : F32
  /-- `tmp_err_i`. -/
  tmpErr : Bool
  /-- `tx_ready_i`. -/
  txReady : Bool
  deriving DecidableEq, Repr, Inhabited

/-- Which arithmetic function yields a NaN. -/
inductive NumOp where
  | fadd
  | fmul
  deriving DecidableEq, Repr

namespace Config

/-- The pins at clock edge number `n` where the state's own list of pins has run out: the environment's draws,
which no rule constrains (00_scope.md R17, 20_memory.md R64 to R75). A free value; DESIGN CHOICE, log 3. -/
opaque envPins : Nat → Pins

/-- Sign and fraction (less one) of the NaN that `fadd` or `fmul` gives: "which NaN is unspecified"
(42_highpass.md R142); it depends on the operands alone (R141). A free value; DESIGN CHOICE, log 11. -/
opaque freeNan : NumOp → F32 → F32 → Bool × Fin 8388607

end Config

end Sys2Proof
end

