-- ==== Sys2Proof/Machine/Numerics.lean ====
section
/-! DEFINITION. The default arithmetic of the high-pass filter, IEEE 754 binary32 with round to nearest, ties to even
(42_highpass.md R142 to R146, R148; PRESUMED, log 16), and the configuration the machine is built with. Finite values are exact integers
in units of `2^-149`. -/

namespace Sys2Proof.Machine

/-- The exponent field `E`, bits 30:23 (R142). -/
def expField (a : F32) : Nat := a.toNat / 2 ^ 23 % 2 ^ 8

/-- The fraction field `F`, bits 22:0 (R142). -/
def fracField (a : F32) : Nat := a.toNat % 2 ^ 23

/-- `E = 255, F != 0` (R142). -/
def isNan (a : F32) : Bool := expField a == 255 && fracField a != 0

/-- `E = 255, F = 0` (R142). -/
def isInf (a : F32) : Bool := expField a == 255 && fracField a == 0

/-- Neither NaN nor infinity (R142). -/
def isFinite (a : F32) : Bool := expField a != 255

/-- The magnitude of a finite value in units of `2^-149`: `F` when `E = 0`, else `(2^23 + F) * 2^(E - 1)` (R142). -/
def magnitude (a : F32) : Nat :=
  if expField a = 0 then fracField a else (2 ^ 23 + fracField a) * 2 ^ (expField a - 1)

/-- The value of a finite pattern in units of `2^-149`, sign bit 31 (R142). -/
def value (a : F32) : Int :=
  if a.msb then -(magnitude a : Int) else (magnitude a : Int)

/-- The 31 magnitude bits of infinity. -/
def infBits : Nat := 255 * 2 ^ 23

/-- A pattern from its sign and its 31 magnitude bits. -/
def signed (neg : Bool) (bits : Nat) : F32 :=
  BitVec.ofNat 32 ((if neg then 2 ^ 31 else 0) + bits)

/-- `n / 2^drop` rounded to the nearest integer, the even one of two equally near (R142). -/
def roundHalfEven (n drop : Nat) : Nat :=
  if 2 ^ drop < 2 * (n % 2 ^ drop) ∨ (2 * (n % 2 ^ drop) = 2 ^ drop ∧ n / 2 ^ drop % 2 = 1) then n / 2 ^ drop + 1
  else n / 2 ^ drop

/-- How many low bits of `n` lie below the last place of the binary32 value nearest to `n / 2^d` units: at least `d`,
and enough to leave 24 significant bits. -/
def dropBits (n d : Nat) : Nat := max d (Nat.log2 n - 23)

/-- `round_f32` of a magnitude of `n / 2^d` units of `2^-149`, as 31 magnitude bits (R142). Rounding up to `2^24` carries
into the exponent field; at `2^128 - 2^103` and above the result is infinity. -/
def roundBits (n d : Nat) : Nat :=
  min ((dropBits n d - d) * 2 ^ 23 + roundHalfEven n (dropBits n d)) infBits

/-- The NaN of an operation: `E = 255`, `F != 0`, sign and `F` free (R142; DESIGN CHOICE, log 11). -/
def nanOf (op : NumOp) (a b : F32) : F32 :=
  signed (Config.freeNan op a b).1 (infBits + (Config.freeNan op a b).2.val + 1)

/-- Whether a pattern is `-0`. -/
def isNegZero (a : F32) : Bool := a == signed true 0

/-- `round_f32` of an exact sum of `r` units; an exact zero is `-0` only when both operands are (R142). -/
def roundSum (a b : F32) (r : Int) : F32 :=
  if r = 0 then signed (isNegZero a && isNegZero b) 0 else signed (decide (r < 0)) (roundBits r.natAbs 0)

/-- `fadd` (R142). -/
def fadd (a b : F32) : F32 :=
  if isNan a || isNan b then nanOf .fadd a b
  else if isInf a && isInf b then (if a = b then a else nanOf .fadd a b)
  else if isInf a then a
  else if isInf b then b
  else roundSum a b (value a + value b)

/-- `fsub` (R143): `fadd` with bit 31 of the second operand inverted. -/
def fsub (a b : F32) : F32 := fadd a (b ^^^ 0x80000000)

/-- Whether a pattern is a zero of either sign. -/
def isZero (a : F32) : Bool := isFinite a && magnitude a == 0

/-- `fmul` (R144). A product of magnitudes is in units of `2^-298`, that is `2^-149` of a unit. -/
def fmul (a b : F32) : F32 :=
  if isNan a || isNan b || (isZero a && isInf b) || (isInf a && isZero b) then nanOf .fmul a b
  else if isInf a || isInf b then signed (a.msb ^^ b.msb) infBits
  else signed (a.msb ^^ b.msb) (roundBits (magnitude a * magnitude b) 149)

/-- `i2f` (R145): `+0` for 0, else `round_f32`. -/
def i2f (v : I32) : F32 :=
  signed (decide (v.toInt < 0)) (roundBits (v.toInt.natAbs * 2 ^ 149) 0)

/-- `f2i` (R146): truncation toward zero, saturating, a NaN gives 0 (DEDUCED, log 19). -/
def f2i (f : F32) : I32 :=
  if isNan f then 0
  else if isInf f then (if f.msb then 0x80000000 else 0x7FFFFFFF)
  else if f.msb then
    (if 2 ^ 31 * 2 ^ 149 < magnitude f then 0x80000000 else BitVec.ofInt 32 (-(magnitude f / 2 ^ 149 : Nat)))
  else
    (if 2 ^ 31 * 2 ^ 149 ≤ magnitude f then 0x7FFFFFFF else BitVec.ofInt 32 (magnitude f / 2 ^ 149 : Nat))

/-- The default `HPF_NUMERICS` record (R141), with the default `ALPHA_BITS` (R148). -/
def binary32 : HpfNumerics :=
  { fadd := fadd, fsub := fsub, fmul := fmul, i2f := i2f, f2i := f2i }

/-- The configuration of the built machine: the constants of 00_scope.md R8 at their defaults, the decided numerics of R11,
the open parameters of R10. -/
def build : Config :=
  { numerics := binary32
    windowN := Config.openWindowN.val + 1
    warmupUs := Config.openWarmupUs.toNat
    calDelayUs := Config.openCalDelayUs.toNat
    windowN_pos := Nat.succ_pos _
    windowN_le := Config.openWindowN.isLt
    warmupUs_lt := Config.openWarmupUs.isLt
    calDelayUs_lt := Config.openCalDelayUs.isLt }

end Sys2Proof.Machine
end

