-- ==== Sys2Proof/Syntax.lean ====
section
/-! DEFINITION. The operations of 30_encoding.md R104 and the packet format of R91: one constructor per row of
spec/opcode_table.json. -/

namespace Sys2Proof

/-- Five 32-bit samples of one axis (10_state.md R37). -/
abbrev Samples := Vector I32 Config.bufferSlots

/-- The 66 bytes of a packet (10_state.md R38). -/
abbrev Packet := Vector Byte Config.packetBytesTotal

/-- The fields of the packet pattern of 30_encoding.md R95: three axes of five integers and three checksum bytes. -/
structure PacketFields where
  z : Samples
  e : Samples
  n : Samples
  ckz : Byte
  cke : Byte
  ckn : Byte
  deriving DecidableEq, Repr

/-- One constructor per row of the table. The twelve operations have no operand fields: "`ctl` alone selects which one
is next" (R104). -/
inductive Instr where
  /-- R200. -/
  | init
  /-- R201. -/
  | warmupWait
  /-- 41_calibrator.md R126. -/
  | calTemp
  /-- R127. -/
  | calSample
  /-- R128. -/
  | calWait
  /-- R129. -/
  | calFinish
  /-- 43_scheduler.md R163. -/
  | poll
  /-- R164. -/
  | tAcc
  /-- R165. -/
  | tTemp
  /-- 45_orchestrator.md R202. -/
  | tProc
  /-- 44_encoder.md R186. -/
  | encode
  /-- R187. -/
  | txByte
  /-- 70_reset_and_hazards.md R250: the host's action, not an operation. -/
  | reset
  /-- 44_encoder.md R184: the packet format, not an operation (DESIGN CHOICE, log 7). -/
  | packet (p : PacketFields)
  deriving DecidableEq, Repr

end Sys2Proof
end

