-- ==== Sys2Proof/Machine/Packet.lean ====
section
/-! DEFINITION. Serialisation and checksum of 44_encoder.md R180 to R184, and the reading of a packet integer of
30_encoding.md R100. -/

namespace Sys2Proof.Machine

/-- `le_bytes` (R180): the two's-complement pattern, least significant byte first. -/
def leBytes (v : I32) : List Byte :=
  [v.extractLsb' 0 8, v.extractLsb' 8 8, v.extractLsb' 16 8, v.extractLsb' 24 8]

/-- `axis_bytes` (R183): byte `4k + j` is byte `j` of sample `k`. -/
def axisBytes (a : Samples) : List Byte :=
  a.toList.flatMap leBytes

/-- `checksum` (R181): the accumulator form, starting at zero, over the 20 serialised bytes. -/
def checksum (a : Samples) : Byte :=
  (axisBytes a).foldl (fun acc b => acc ^^^ b) 0

/-- The 66 bytes of R184 as a list, zenith, east, north, with the header and reserved bytes of the configuration and the
three checksum bytes given. -/
def packetBytes (c : Config) (z e n : Samples) (ckz cke ckn : Byte) : List Byte :=
  [c.header0, c.header1] ++ axisBytes z ++ axisBytes e ++ axisBytes n
    ++ [ckz, cke, ckn, c.reservedByte]

theorem axisBytes_length (a : Samples) : (axisBytes a).length = 20 := by
  simp [axisBytes, leBytes, List.length_flatMap, Config.bufferSlots]

theorem packetBytes_length (c : Config) (z e n : Samples) (ckz cke ckn : Byte) :
    (packetBytes c z e n ckz cke ckn).length = Config.packetBytesTotal := by
  simp [packetBytes, axisBytes_length]

/-- `encode(z, e, n)` (R184): the checksums are computed anew from the same integers (R185, R192). -/
def encodePacket (c : Config) (z e n : Samples) : Packet :=
  ⟨(packetBytes c z e n (checksum z) (checksum e) (checksum n)).toArray,
    by simp [packetBytes_length]⟩

/-- One packet integer read at byte offset `o` (30_encoding.md R100). -/
def readI32 (p : List Byte) (o : Nat) : I32 :=
  BitVec.ofNat 32 ((p.getD o 0).toNat + 256 * (p.getD (o + 1) 0).toNat
    + 65536 * (p.getD (o + 2) 0).toNat + 16777216 * (p.getD (o + 3) 0).toNat)

/-- The five samples of the axis field that starts at byte `base`: sample `k` at `base + 4k` (R91, R100). -/
def readAxis (p : List Byte) (base : Nat) : Samples :=
  #v[readI32 p base, readI32 p (base + 4), readI32 p (base + 8), readI32 p (base + 12), readI32 p (base + 16)]

end Sys2Proof.Machine
end

