-- ==== Sys2Proof/WellFormed.lean ====
section
/-! DEFINITION. Which terms of `Instr` are instructions: the operations always; a packet when its three checksum bytes
are those of its axes (30_encoding.md R95: "a well-formed packet also satisfies …"). -/

namespace Sys2Proof

/-- The zenith check of R95. -/
abbrev PacketFields.zenithOk (p : PacketFields) : Prop := p.ckz = Machine.checksum p.z
/-- The east check of R95. -/
abbrev PacketFields.eastOk (p : PacketFields) : Prop := p.cke = Machine.checksum p.e
/-- The north check of R95. -/
abbrev PacketFields.northOk (p : PacketFields) : Prop := p.ckn = Machine.checksum p.n

/-- A packet's three checks of R95. -/
abbrev PacketFields.Ok (p : PacketFields) : Prop := p.zenithOk ∧ p.eastOk ∧ p.northOk

/-- Well-formedness, constructor by constructor. -/
def WellFormed (i : Instr) : Prop :=
  match i with
  | .init => True
  | .warmupWait => True
  | .calTemp => True
  | .calSample => True
  | .calWait => True
  | .calFinish => True
  | .poll => True
  | .tAcc => True
  | .tTemp => True
  | .tProc => True
  | .encode => True
  | .txByte => True
  | .reset => True
  | .packet p => p.Ok

/-- The packet fields with the checksums `encode` computes (44_encoder.md R184). -/
def PacketFields.ofSamples (z e n : Samples) : PacketFields :=
  { z := z, e := e, n := n, ckz := Machine.checksum z, cke := Machine.checksum e, ckn := Machine.checksum n }

end Sys2Proof
end

