-- ==== Sys2Proof/Decode.lean ====
section
/-! DEFINITION. The decoder, total on any bytes and rejecting by name, and after it the encoder. An operation is its
4-bit `ctl` code (30_encoding.md R104, R108: mask `0xF`) in one byte; `RESET` has no bits (R250: "mask none"); a
packet is its 66 bytes (R91, R100). The layout of codes in a byte is DESIGN CHOICE, log 8. -/

namespace Sys2Proof

/-- Why bytes are no instruction. -/
inductive DecodeError where
  /-- Code 12, `FATAL`: "no operation is enabled" (10_state.md R21). -/
  | fatalSelectsNothing
  /-- Codes 13 to 15: unreachable, no operation selected (R21, 93_implementation_defined.md U8). -/
  | unusedCode
  /-- Neither no byte, nor one, nor 66 (30_encoding.md R90). -/
  | badLength
  /-- Bytes 0 and 1 are not `FC 1B` (R100). -/
  | badHeader
  /-- Byte 65 is not `00` (R100, R101, U1). -/
  | badReserved
  /-- Byte 62 is not the XOR of bytes 2 to 21 (R100). -/
  | badZenithChecksum
  /-- Byte 63 is not the XOR of bytes 22 to 41 (R100). -/
  | badEastChecksum
  /-- Byte 64 is not the XOR of bytes 42 to 61 (R100). -/
  | badNorthChecksum
  deriving DecidableEq, Repr

/-- The operation a 4-bit `ctl` code selects (10_state.md R21, 30_encoding.md R104). -/
def decodeCode (code : BitVec 4) : Except DecodeError Instr :=
  match code.toNat with
  | 0 => .ok .init
  | 1 => .ok .warmupWait
  | 2 => .ok .calTemp
  | 3 => .ok .calSample
  | 4 => .ok .calWait
  | 5 => .ok .calFinish
  | 6 => .ok .poll
  | 7 => .ok .tAcc
  | 8 => .ok .tTemp
  | 9 => .ok .tProc
  | 10 => .ok .encode
  | 11 => .ok .txByte
  | 12 => .error .fatalSelectsNothing
  | _ => .error .unusedCode

/-- The fields of a packet's bytes (30_encoding.md R91, R100), unchecked. -/
def readFields (b : List Byte) : PacketFields :=
  { z := Machine.readAxis b 2, e := Machine.readAxis b 22, n := Machine.readAxis b 42,
    ckz := b.getD 62 0, cke := b.getD 63 0, ckn := b.getD 64 0 }

/-- The checks of R100, in its order, on 66 bytes. -/
def decodePacket (b : List Byte) : Except DecodeError Instr :=
  if ¬ (b.getD 0 0 = Machine.build.header0 ∧ b.getD 1 0 = Machine.build.header1) then .error .badHeader
  else if b.getD 65 0 ≠ Machine.build.reservedByte then .error .badReserved
  else if ¬ (readFields b).zenithOk then .error .badZenithChecksum
  else if ¬ (readFields b).eastOk then .error .badEastChecksum
  else if ¬ (readFields b).northOk then .error .badNorthChecksum
  else .ok (.packet (readFields b))

/-- The decoder, total on any bytes. -/
def decode (b : List Byte) : Except DecodeError Instr :=
  match b with
  | [] => .ok .reset
  | [w] => decodeCode (w.extractLsb' 0 4)
  | _ => if b.length = Machine.build.packetLen then decodePacket b else .error .badLength

/-- The encoder: the bytes of an instruction, from the same tables. -/
def encode (i : Instr) : List Byte :=
  match i with
  | .init => [0x0]
  | .warmupWait => [0x1]
  | .calTemp => [0x2]
  | .calSample => [0x3]
  | .calWait => [0x4]
  | .calFinish => [0x5]
  | .poll => [0x6]
  | .tAcc => [0x7]
  | .tTemp => [0x8]
  | .tProc => [0x9]
  | .encode => [0xA]
  | .txByte => [0xB]
  | .reset => []
  | .packet p => Machine.packetBytes Machine.build p.z p.e p.n p.ckz p.cke p.ckn

/-- `k` bytes of `w`, byte `j` in bits `8j + 7 .. 8j`. 30_encoding.md R95 writes a packet's pattern as a string, byte 0
first and the most significant bit of a byte first, and does not say which end of a 528-bit number is byte 0; that byte 0
is bits 7..0 is the model's (DESIGN CHOICE, log 8). -/
def bytesOf (w : Nat) : Nat → List Byte
  | 0 => []
  | k + 1 => BitVec.ofNat 8 w :: bytesOf (w / 256) k

/-- The bytes of an instruction of `nbits` table bits: none, one, or, for anything longer, a packet's 66 with zeros
above the table's bits (longer words keep their own length and are refused). -/
def wordBytes (nbits w : Nat) : List Byte :=
  if nbits = 0 then []
  else if nbits ≤ 8 then bytesOf w 1
  else bytesOf w ((nbits + 7) / 8) ++ List.replicate (Machine.build.packetLen - (nbits + 7) / 8) 0

/-- What the decoder reads from an instruction whose bits are `w`, its bytes laid out by `bytesOf` (DESIGN CHOICE, log 8). -/
def decodeTableWord (nbits w : Nat) : Option Instr :=
  match decode (wordBytes nbits w) with
  | .ok i => some i
  | .error _ => none

end Sys2Proof
end

