-- ==== Sys2Proof/Machine/State.lean ====
section
/-! DEFINITION. The SPC's state record, the registers of 10_state.md R20, as plain data (`Registers`); what an operation
does to it; the closed system that the host steps, which adds the environment and the trace (`State`); the reasons a
step can stop; the machine after reset. -/

namespace Sys2Proof.Machine

/-- The control state `ctl` (10_state.md R21), an enumeration as R21 asks. -/
inductive Ctl where
  | uninit
  | warmup
  | calTemp
  | calRead
  | calDelay
  | calDone
  | poll
  | tickAcc
  | tickTemp
  | tickProc
  | encode
  | tx
  | fatal
  deriving DecidableEq, Repr

/-- `fatal_cause` (10_state.md R39, 60_exceptions.md R220). -/
inductive FatalCause where
  | none
  | calTempErr
  | calAccErr
  | tickAccErr
  | tickTempErr
  deriving DecidableEq, Repr

/-- The interface events of 20_memory.md R63. -/
inductive Event where
  | now (t : U32)
  | envInit
  | acc (x y z : I16) (err : Bool)
  | temp (t : F32) (err : Bool)
  | tx (b : Byte)
  deriving DecidableEq, Repr

/-- Which registers of unspecified reset value an operation has written (10_state.md R43), by the groups of the R42
table. No meaning reads these flags (DESIGN CHOICE, log 2). -/
structure Written where
  /-- `cfg_hpf`, `cfg_dyn`. -/
  straps : Bool
  /-- `delay_start`. -/
  delayStart : Bool
  /-- `calib_temp`. -/
  calibTemp : Bool
  /-- `sum_x`, `sum_y`, `sum_z`. -/
  sums : Bool
  /-- `off_x`, `off_y`, `off_z`. -/
  offsets : Bool
  /-- `current_temp`. -/
  currentTemp : Bool
  /-- `window[]`, `wr_pos`. -/
  window : Bool
  /-- `last_tick`. -/
  lastTick : Bool
  /-- `raw_x`, `raw_y`, `raw_z`. -/
  raw : Bool
  /-- Slot `k` of the three buffers. -/
  slots : Vector Bool Config.bufferSlots
  /-- `pkt[]`. -/
  pkt : Bool
  deriving DecidableEq, Repr

/-- Nothing written: the flags right after reset (R43). -/
def Written.nothing : Written :=
  { straps := false, delayStart := false, calibTemp := false, sums := false, offsets := false, currentTemp := false
    window := false, lastTick := false, raw := false, slots := #v[false, false, false, false, false], pkt := false }

/-- The state of the SPC: "the following set of registers and register arrays and nothing else" (10_state.md R20), for
a build whose `WINDOW_N` is `n` (00_scope.md R10). An operation under the configuration `c` acts on
`Registers c.windowN`. Constants, true time, coming readings and pin levels are no fields of it (R44). The flags
`written` are the MODEL's. -/
structure Registers (n : Nat) where
  /-- `ctl` (R21). -/
  ctl : Ctl
  /-- `cal_count` (R23). -/
  calCount : BitVec 8
  /-- `buf_idx` (R24). -/
  bufIdx : BitVec 3
  /-- `tx_idx` (R25). -/
  txIdx : BitVec 7
  /-- `temp_ctr` (R26). -/
  tempCtr : BitVec 6
  /-- `fatal_cause` (R39). -/
  fatalCause : FatalCause
  /-- `last_tick` (R27). -/
  lastTick : U32
  /-- `delay_start` (R27). -/
  delayStart : U32
  /-- `cfg_hpf` (R31). -/
  cfgHpf : Bool
  /-- `cfg_dyn` (R31). -/
  cfgDyn : Bool
  /-- `raw_x`, `raw_y`, `raw_z` (R30). -/
  raw : XYZ I16
  /-- `sum_x`, `sum_y`, `sum_z` (R32). -/
  sum : XYZ I32
  /-- `off_x`, `off_y`, `off_z` (R33). -/
  off : XYZ I32
  /-- `calib_temp` (R29). -/
  calibTemp : F32
  /-- `current_temp` (R29). -/
  currentTemp : F32
  /-- `filt_e`, `filt_n`, `filt_z` (R34). -/
  filt : Lanes F32
  /-- `last_e`, `last_n`, `last_z` (R34). -/
  last : Lanes I32
  /-- `window[0 .. WINDOW_N - 1]` (R35), entries of `INT_W` = 32 bits (92_eei_decisions.md D6) holding `i16` values
  (DEDUCED, log 22). -/
  window : Vector I32 n
  /-- `wr_pos`, range `0 .. WINDOW_N - 1` (R35); its bits are `Registers.wrPosBits` (DEDUCED, log 14). -/
  wrPos : Fin n
  /-- `buf_e[]`, `buf_n[]`, `buf_z[]` (R37). -/
  buf : Lanes Samples
  /-- `pkt[]` (R38). -/
  pkt : Packet
  /-- The MODEL's field: the registers written since reset (R43; DESIGN CHOICE, log 2). -/
  written : Written
  deriving DecidableEq, Repr

/-- `wr_pos` as the bits of R35. -/
def Registers.wrPosBits {n : Nat} (r : Registers n) : BitVec (Config.wrPosWidth n) :=
  BitVec.ofNat (Config.wrPosWidth n) r.wrPos.val

/-- What an operation does: "a next state with the list of interface events produced" (45_orchestrator.md R206). -/
structure Effect (n : Nat) where
  regs : Registers n
  events : List Event
  deriving DecidableEq, Repr

/-- The closed system that the host steps: the SPC of the built machine and, as the MODEL's own fields beside it, its
environment's answers and the trace. The host's step has no input argument, so what R44 makes inputs of the step
relation stands here and not in `Registers` (DESIGN CHOICE, log 3). -/
structure State extends Registers build.windowN where
  /-- The MODEL's field: the input pins at the coming clock edges, next first (20_memory.md R62; DESIGN CHOICE, log 3). -/
  inputs : List Pins
  /-- The MODEL's field: how many clock edges have passed; it indexes `Config.envPins` (DESIGN CHOICE, log 3). -/
  cycle : Nat
  /-- The MODEL's field: the trace of 20_memory.md R78, oldest event first (DEDUCED, log 6). -/
  trace : List Event
  deriving DecidableEq, Repr

/-- Why the model stops. "No index can go out of range" (20_memory.md R61), so all are safe: no run reaches
one (DEDUCED, log 12). The architectural fault of the SPC, `Fatal`, is no stop: it is taken (`Registers.raiseFatal`). -/
inductive Fault where
  /-- `T_PROC` with `buf_idx` above 4: there is no such slot (10_state.md R24). Raised by `tProcEffect`. Safe. -/
  | slotIndex
  /-- `TX_BYTE` with `tx_idx` above 65: there is no such byte (10_state.md R25). Raised by `txByteEffect`. Safe. -/
  | packetIndex
  deriving DecidableEq, Repr

/-- Why an instruction has no meaning. -/
inductive Refusal where
  /-- The arm of an instruction that is not modelled yet. Raised by no arm of `exec`. Safe. -/
  | notModelled (mnemonic : String)
  deriving DecidableEq, Repr

/-- The registers right after reset, for every configuration (10_state.md R42, 70_reset_and_hazards.md R250). Those R42
calls "unspecified" hold 0, the model's choice (DESIGN CHOICE, log 1), and are marked unwritten (R43). -/
def Registers.reset (c : Config) : Registers c.windowN :=
  { ctl := .uninit
    calCount := 0
    bufIdx := 0
    txIdx := 0
    tempCtr := 0
    fatalCause := .none
    lastTick := 0
    delayStart := 0
    cfgHpf := false
    cfgDyn := false
    raw := { x := 0, y := 0, z := 0 }
    sum := { x := 0, y := 0, z := 0 }
    off := { x := 0, y := 0, z := 0 }
    calibTemp := 0
    currentTemp := 0
    filt := { e := 0, n := 0, z := 0 }
    last := { e := 0, n := 0, z := 0 }
    window := Vector.replicate c.windowN 0
    wrPos := ⟨0, c.windowN_pos⟩
    buf := { e := Vector.replicate 5 0, n := Vector.replicate 5 0, z := Vector.replicate 5 0 }
    pkt := Vector.replicate 66 0
    written := Written.nothing }

/-- The machine right after reset, where runs start (DESIGN CHOICE, log 18). -/
def State.reset : State :=
  { toRegisters := Registers.reset build
    inputs := []
    cycle := 0
    trace := [] }

end Sys2Proof.Machine
end

