-- ==== Sys2Proof/Machine/Ops.lean ====
section
/-! DEFINITION. The shared operations: the pins of the present clock edge, the events of a read, waiting, taking the fault
`Fatal` and leaving it by reset, an effect's place in the closed system, selection of the next operation, the end of a
clock edge, and the placing of a word. -/

namespace Sys2Proof.Machine

/-- The 4-bit code of a control state (10_state.md R21). -/
def Ctl.code (c : Ctl) : BitVec 4 :=
  match c with
  | .uninit => 0
  | .warmup => 1
  | .calTemp => 2
  | .calRead => 3
  | .calDelay => 4
  | .calDone => 5
  | .poll => 6
  | .tickAcc => 7
  | .tickTemp => 8
  | .tickProc => 9
  | .encode => 10
  | .tx => 11
  | .fatal => 12

/-- The control state of a code; codes 13 to 15 are no control state (R21, 93_implementation_defined.md U8). -/
def Ctl.ofCode (code : BitVec 4) : Option Ctl :=
  match code.toNat with
  | 0 => some .uninit
  | 1 => some .warmup
  | 2 => some .calTemp
  | 3 => some .calRead
  | 4 => some .calDelay
  | 5 => some .calDone
  | 6 => some .poll
  | 7 => some .tickAcc
  | 8 => some .tickTemp
  | 9 => some .tickProc
  | 10 => some .encode
  | 11 => some .tx
  | 12 => some .fatal
  | _ => none

/-- The numeric code of a fault cause (60_exceptions.md R220). -/
def FatalCause.code (c : FatalCause) : Nat :=
  match c with
  | .none => 0
  | .calTempErr => 1
  | .calAccErr => 2
  | .tickAccErr => 3
  | .tickTempErr => 4

/-- The input pins at the present clock edge: the head of the state's list, or the environment's free draw (DESIGN CHOICE, log 3). -/
def State.pins (s : State) : Pins :=
  match s.inputs with
  | p :: _ => p
  | [] => Config.envPins s.cycle

/-- The clock edge is over: the next pins come up (DESIGN CHOICE, log 3). No register changes. -/
def State.nextEdge (s : State) : State :=
  { s with inputs := s.inputs.tail, cycle := s.cycle + 1 }

/-- The event of the acceleration read that completes on these pins (R66; of a failed one: DEDUCED, log 20). -/
def accEvent (p : Pins) : Event := .acc p.accX p.accY p.accZ p.accErr

/-- The event of the temperature read that completes on these pins (R68; of a failed one: DEDUCED, log 20). -/
def tempEvent (p : Pins) : Event := .temp p.tmpData p.tmpErr

/-- An operation whose handshake is not answered changes nothing (20_memory.md R75). -/
def Registers.hold {n : Nat} (r : Registers n) : Effect n := { regs := r, events := [] }

/-- `raise Fatal(cause)` (60_exceptions.md R222) by an operation that has produced the events `evs`: only `ctl` and
`fatal_cause` change; nothing is saved elsewhere. -/
def Registers.raiseFatal {n : Nat} (r : Registers n) (cause : FatalCause) (evs : List Event) : Effect n :=
  { regs := { r with ctl := .fatal, fatalCause := cause }, events := evs }

/-- An operation's effect takes place: the registers are written, the interface events happen in order (20_memory.md
R63, R78). -/
def State.apply (s : State) (e : Effect build.windowN) : State :=
  { s with toRegisters := e.regs, trace := s.trace ++ e.events }

/-- An operation's outcome takes place. -/
def State.run (s : State) (o : Host.Outcome (Effect build.windowN) Fault Refusal) : Host.Outcome State Fault Refusal :=
  match o with
  | .next e => .next (s.apply e)
  | .fault r => .fault r
  | .refused r => .refused r

/-- `RESET` (70_reset_and_hazards.md R250), the only way out of `FATAL` (R228): every register takes its value after
reset, and no event happens. The environment's pins and the trace are not registers of the SPC and stay (R253; DEDUCED,
log 6). -/
def resetEffect (c : Config) : Effect c.windowN := { regs := Registers.reset c, events := [] }

/-- The bytes that select what happens at a clock edge: none when `rst` is high (R227: "`rst` wins over everything"),
else the code of `ctl` (30_encoding.md R104). -/
def Registers.selection {n : Nat} (r : Registers n) (rst : Bool) : List Byte :=
  if rst then [] else [r.ctl.code.setWidth 8]

/-- The selection at the present clock edge. -/
def State.selection (s : State) : List Byte := s.toRegisters.selection s.pins.rst

/-- A clock edge ends after the operation's outcome. -/
def afterEdge (o : Host.Outcome State Fault Refusal) : Host.Outcome State Fault Refusal :=
  match o with
  | .next s => .next s.nextEdge
  | .fault r => .fault r
  | .refused r => .refused r

/-- Pins of an environment that answers every handshake without an error, `rst` as given, everything else 0: what a
word needs in order to execute at the very next edge instead of holding (20_memory.md R75; DESIGN CHOICE, log 9). -/
def answeringPins (rst : Bool) : Pins :=
  { rst := rst, cfgHpf := false, cfgDyn := false, now := 0, initAck := true, accValid := true, accX := 0, accY := 0
    accZ := 0, accErr := false, tmpValid := true, tmpData := 0, tmpErr := false, txReady := true }

/-- Put one edge of pins before the coming ones. -/
def State.pushPins (s : State) (p : Pins) : State :=
  { s with inputs := p :: s.inputs }

/-- Place an operation: `ctl` selects it. A code that is no control state changes nothing. -/
def State.selectCode (s : State) (code : BitVec 4) : State :=
  match Ctl.ofCode code with
  | some c => { s with ctl := c }
  | none => s

/-- Place a packet: the buffers are full with its samples and `ctl` selects `ENCODE`, which builds it (44_encoder.md
R186; DESIGN CHOICE, log 9). -/
def State.selectPacket (s : State) (p : PacketFields) : State :=
  { s with ctl := .encode, bufIdx := 5, buf := { e := p.e, n := p.n, z := p.z } }

/-- Place the instruction whose table bits are `w` so that the very next step runs it (DESIGN CHOICE, log 9; the
bits are laid out by `wordBytes`: DESIGN CHOICE, log 8). -/
def State.placeWord (s : State) (nbits w : Nat) : State :=
  if nbits = 0 then s.pushPins (answeringPins true)
  else if nbits ≤ 8 then (s.selectCode (BitVec.ofNat 4 w)).pushPins (answeringPins false)
  else (s.selectPacket (readFields (wordBytes nbits w))).pushPins (answeringPins false)

end Sys2Proof.Machine
end

