-- ==== Sys2Proof/Machine/Operands.lean ====
section
/-! DEFINITION. Operand forms: sign extension (30_encoding.md R96), the axis mapping (R97), bias correction
(45_orchestrator.md R203), the truncated quotient (41_calibrator.md R120). -/

namespace Sys2Proof.Machine

/-- `sext_16` (00_scope.md R14, 30_encoding.md R96). -/
def sext16 (v : I16) : I32 := v.signExtend 32

/-- The axis mapping (R97): `x` feeds east, `y` north, `z` zenith, without sign change. -/
def lanesOf {α : Type} (v : XYZ α) : Lanes α := { e := v.x, n := v.y, z := v.z }

/-- `correct` (R203): `sext_16(raw) - off`, in 32 bits (DEDUCED, log 21). -/
def correct (raw : I16) (off : I32) : I32 := sext16 raw - off

/-- The corrected values of a tick, lane by lane, with the offsets as they stand (45_orchestrator.md R202 step 1). -/
def Registers.corrected {n : Nat} (r : Registers n) : Lanes I32 :=
  Lanes.zip correct (lanesOf r.raw) (lanesOf r.off)

/-- `trunc_div` (41_calibrator.md R120), rounding toward zero; every divisor in the SPC is positive. -/
def truncDiv (a b : Int) : Int :=
  if 0 ≤ a then a / b else -(-a / b)

end Sys2Proof.Machine
end

