-- ==== Sys2Proof/Machine/Flags.lean ====
section
/-! DEFINITION. The SPC holds no status flags (10_state.md R40). Its combinational conditions stand here: elapsed time,
the due test, the delay tests, the quiescence gate. -/

namespace Sys2Proof.Machine

/-- `elapsed` (43_scheduler.md R161): the difference of two times modulo `2^32`. -/
def elapsed (start t : U32) : U32 := t - start

/-- A delay of `d` microseconds is over (41_calibrator.md R128, 45_orchestrator.md R201), an unsigned comparison. -/
def delayOver (d : Nat) (start t : U32) : Bool := decide (d ≤ (elapsed start t).toNat)

/-- `due` (43_scheduler.md R162). -/
def due (c : Config) (last t : U32) : Bool := decide (c.interval ≤ (elapsed last t).toNat)

/-- One axis of the quiescence gate: strictly below the threshold (41_calibrator.md R123). -/
def stillAxis (c : Config) (v : I32) : Bool := decide (v.toInt.natAbs < c.stillThreshold)

/-- `still` (R123): each corrected axis by itself. -/
def still (c : Config) (v : Lanes I32) : Bool := stillAxis c v.e && stillAxis c v.n && stillAxis c v.z

/-- The gated update of this tick runs: `cfg_dyn = 1` and the device is still (R124). -/
def Registers.gateOpen (c : Config) (r : Registers c.windowN) : Bool := r.cfgDyn && still c r.corrected

end Sys2Proof.Machine
end

