-- ==== Sys2Proof/Machine/Calibrator.lean ====
section
/-! DEFINITION. The bias calibrator (41_calibrator.md): `cal_mean`, `window_update` and the four calibration
operations. -/

namespace Sys2Proof.Machine

/-- `cal_mean` (R121). -/
def calMean (c : Config) (sum : I32) : I32 := BitVec.ofInt 32 (truncDiv sum.toInt c.calibrationSamples)

/-- The truncated mean of the window's entries over their number, `WINDOW_N` (R125). -/
def windowMean {n : Nat} (w : Vector I32 n) : I32 := BitVec.ofInt 32 (truncDiv (w.toList.map BitVec.toInt).sum n)

/-- The window of `window_update` (R125): entry `p` replaced by the raw reading's value (DEDUCED, log 15). -/
def windowPush {n : Nat} (w : Vector I32 n) (p : Fin n) (rz : I16) : Vector I32 n := w.set p.val (sext16 rz) p.isLt

/-- The write position of `window_update`, `(p + 1) mod WINDOW_N` (R125, 20_memory.md R61). -/
def wrPosNext {n : Nat} (p : Fin n) : Fin n := ⟨(p.val + 1) % n, Nat.mod_lt _ (Nat.zero_lt_of_lt p.isLt)⟩

/-- `CAL_TEMP` (R126): holds until the temperature read completes; its error flag raises `Fatal`. -/
def calTempEffect {n : Nat} (r : Registers n) (p : Pins) : Effect n :=
  if p.tmpValid then
    if p.tmpErr then r.raiseFatal .calTempErr [tempEvent p]
    else
      { regs :=
          { r with
            calibTemp := p.tmpData
            sum := { x := 0, y := 0, z := 0 }
            calCount := 0
            ctl := .calRead
            written := { r.written with calibTemp := true, sums := true } }
        events := [tempEvent p] }
  else r.hold

/-- The meaning of `CAL_TEMP`. -/
def execCalTemp (s : State) : Host.Outcome State Fault Refusal := .next (s.apply (calTempEffect s.toRegisters s.pins))

/-- `CAL_SAMPLE` (R127): holds until the read completes; its error flag raises `Fatal` with no `Now` event. -/
def calSampleEffect {n : Nat} (r : Registers n) (p : Pins) : Effect n :=
  if p.accValid then
    if p.accErr then r.raiseFatal .calAccErr [accEvent p]
    else
      { regs :=
          { r with
            sum := { x := r.sum.x + sext16 p.accX, y := r.sum.y + sext16 p.accY, z := r.sum.z + sext16 p.accZ }
            calCount := r.calCount + 1
            delayStart := p.now
            ctl := .calDelay
            written := { r.written with sums := true, delayStart := true } }
        events := [accEvent p, .now p.now] }
  else r.hold

/-- The meaning of `CAL_SAMPLE`. -/
def execCalSample (s : State) : Host.Outcome State Fault Refusal :=
  .next (s.apply (calSampleEffect s.toRegisters s.pins))

/-- `CAL_WAIT` (R128): one poll of the inter-sample delay. -/
def calWaitEffect (c : Config) (r : Registers c.windowN) (p : Pins) : Effect c.windowN :=
  { regs :=
      { r with
        ctl :=
          if delayOver c.calDelayUs r.delayStart p.now then
            (if r.calCount.toNat = c.calibrationSamples then .calDone else .calRead)
          else r.ctl }
    events := [.now p.now] }

/-- The meaning of `CAL_WAIT`. -/
def execCalWait (s : State) : Host.Outcome State Fault Refusal :=
  .next (s.apply (calWaitEffect build s.toRegisters s.pins))

/-- `CAL_FINISH` (R129): the offsets, a window of `WINDOW_N` entries (00_scope.md R10) full of the vertical one, the tick
clock's seed. -/
def calFinishEffect (c : Config) (r : Registers c.windowN) (p : Pins) : Effect c.windowN :=
  { regs :=
      { r with
        off := { x := calMean c r.sum.x, y := calMean c r.sum.y, z := calMean c r.sum.z }
        currentTemp := r.calibTemp
        window := Vector.replicate c.windowN (calMean c r.sum.z)
        wrPos := ⟨0, c.windowN_pos⟩
        lastTick := p.now
        tempCtr := 0
        bufIdx := 0
        ctl := .poll
        written := { r.written with offsets := true, currentTemp := true, window := true, lastTick := true } }
    events := [.now p.now] }

/-- The meaning of `CAL_FINISH`. -/
def execCalFinish (s : State) : Host.Outcome State Fault Refusal :=
  .next (s.apply (calFinishEffect build s.toRegisters s.pins))

end Sys2Proof.Machine
end

