-- ==== Sys2Proof/Machine/Encoder.lean ====
section
/-! DEFINITION. The packet encoder (44_encoder.md): `ENCODE`, `TX_BYTE`, and the packet format `PACKET`. -/

namespace Sys2Proof.Machine

/-- Build the packet of fifteen integers and empty the buffer (R184, R186). -/
def Registers.buildPacket (c : Config) (r : Registers c.windowN) (z e n : Samples) : Registers c.windowN :=
  { r with
    pkt := encodePacket c z e n
    bufIdx := 0
    txIdx := 0
    ctl := .tx
    written := { r.written with pkt := true } }

/-- `ENCODE` (R186): the packet of the three buffers; the slots keep their values. -/
def encodeEffect (c : Config) (r : Registers c.windowN) : Effect c.windowN :=
  { regs := r.buildPacket c r.buf.z r.buf.e r.buf.n, events := [] }

/-- The meaning of `ENCODE`. -/
def execEncode (s : State) : Host.Outcome State Fault Refusal := .next (s.apply (encodeEffect build s.toRegisters))

/-- `TX_BYTE` (R187) with the byte `b` of the packet at `tx_idx`: holds until the transport takes it (20_memory.md R70,
R75). -/
def sendByte (c : Config) (r : Registers c.windowN) (p : Pins) (b : Byte) : Effect c.windowN :=
  if p.txReady then
    { regs := if r.txIdx.toNat = c.packetLen - 1 then { r with ctl := .poll } else { r with txIdx := r.txIdx + 1 }
      events := [.tx b] }
  else r.hold

/-- `TX_BYTE` (R187). -/
def txByteEffect (c : Config) (r : Registers c.windowN) (p : Pins) : Host.Outcome (Effect c.windowN) Fault Refusal :=
  if h : r.txIdx.toNat < Config.packetBytesTotal then .next (sendByte c r p r.pkt[r.txIdx.toNat]) else .fault .packetIndex

/-- The meaning of `TX_BYTE`. -/
def execTxByte (s : State) : Host.Outcome State Fault Refusal := s.run (txByteEffect build s.toRegisters s.pins)

/-- `PACKET` (R184, 30_encoding.md R91; DESIGN CHOICE, log 7): the packet of the given fifteen integers stands in the
packet register, ready for the 66 `TX_BYTE` that send it. The checksums are computed anew (R185). -/
def packetEffect (c : Config) (f : PacketFields) (r : Registers c.windowN) : Effect c.windowN :=
  { regs := r.buildPacket c f.z f.e f.n, events := [] }

/-- The meaning of `PACKET`. -/
def execPacket (f : PacketFields) (s : State) : Host.Outcome State Fault Refusal :=
  .next (s.apply (packetEffect build f s.toRegisters))

end Sys2Proof.Machine
end

