-- ==== Sys2Proof/Machine/Lifecycle.lean ====
section
/-! DEFINITION. `INIT`, `WARMUP_WAIT` (45_orchestrator.md R200, R201) and `RESET` (70_reset_and_hazards.md R250). -/

namespace Sys2Proof.Machine

/-- `INIT` (R200): holds until `init_ack_i`; then `EnvInit`, the straps, `Now`. -/
def initEffect {n : Nat} (r : Registers n) (p : Pins) : Effect n :=
  if p.initAck then
    { regs :=
        { r with
          cfgHpf := p.cfgHpf
          cfgDyn := p.cfgDyn
          delayStart := p.now
          ctl := .warmup
          written := { r.written with straps := true, delayStart := true } }
      events := [.envInit, .now p.now] }
  else r.hold

/-- The meaning of `INIT`. -/
def execInit (s : State) : Host.Outcome State Fault Refusal := .next (s.apply (initEffect s.toRegisters s.pins))

/-- `WARMUP_WAIT` (R201): one poll of the warm-up delay. -/
def warmupWaitEffect (c : Config) (r : Registers c.windowN) (p : Pins) : Effect c.windowN :=
  { regs := { r with ctl := if delayOver c.warmupUs r.delayStart p.now then .calTemp else r.ctl }
    events := [.now p.now] }

/-- The meaning of `WARMUP_WAIT`. -/
def execWarmupWait (s : State) : Host.Outcome State Fault Refusal :=
  .next (s.apply (warmupWaitEffect build s.toRegisters s.pins))

/-- The meaning of `RESET` (R250). -/
def execReset (s : State) : Host.Outcome State Fault Refusal := .next (s.apply (resetEffect build))

end Sys2Proof.Machine
end

