-- ==== Sys2Proof/Machine/Pipeline.lean ====
section
/-! DEFINITION. The high-pass filter step (42_highpass.md R147) and the per-tick pipeline `T_PROC`
(45_orchestrator.md R202). -/

namespace Sys2Proof.Machine

/-- `filtered'` of `hpf_step` (R147), left to right, each operation rounded. -/
def filtered (h : HpfNumerics) (filt : F32) (last v : I32) : F32 :=
  h.fmul h.alphaBits (h.fsub (h.fadd filt (h.i2f v)) (h.i2f last))

/-- `hpf_step` (R147): the new accumulator and the new last input. -/
def hpfStep (h : HpfNumerics) (filt : F32) (last v : I32) : F32 × I32 := (filtered h filt last v, v)

/-- The three lanes' filter steps on the corrected values of the tick (R152). -/
def Registers.hpfLanes (c : Config) (r : Registers c.windowN) : Lanes (F32 × I32) :=
  { e := hpfStep c.numerics r.filt.e r.last.e r.corrected.e
    n := hpfStep c.numerics r.filt.n r.last.n r.corrected.n
    z := hpfStep c.numerics r.filt.z r.last.z r.corrected.z }

/-- The values appended to the buffers (30_encoding.md R98). -/
def Registers.tickOut (c : Config) (r : Registers c.windowN) : Lanes I32 :=
  if r.cfgHpf then (r.hpfLanes c).map (fun q => c.numerics.f2i q.1) else r.corrected

/-- Step 2 of R202: with the gate open the window of `WINDOW_N` entries, `wr_pos` and `off_z` are updated with the RAW
vertical reading. -/
def Registers.trackOffset (c : Config) (r : Registers c.windowN) : Registers c.windowN :=
  if r.gateOpen c then
    { r with
      window := windowPush r.window r.wrPos r.raw.z
      wrPos := wrPosNext r.wrPos
      off := { r.off with z := windowMean (windowPush r.window r.wrPos r.raw.z) } }
  else r

/-- Step 3 of R202: with `cfg_hpf = 1` the six filter registers are written. -/
def Registers.runFilter (c : Config) (r : Registers c.windowN) : Registers c.windowN :=
  if r.cfgHpf then { r with filt := (r.hpfLanes c).map Prod.fst, last := (r.hpfLanes c).map Prod.snd } else r

/-- Step 4 of R202: append to slot `k` of the three buffers; the test for a full buffer uses the old `buf_idx`. -/
def Registers.append (c : Config) (r : Registers c.windowN) (out : Lanes I32) (k : Nat)
    (h : k < Config.bufferSlots) : Registers c.windowN :=
  { r with
    buf := Lanes.zip (fun b v => b.set k v h) r.buf out
    bufIdx := r.bufIdx + 1
    ctl := if r.bufIdx.toNat + 1 = c.samplesPerPacket then .encode else .poll
    written := { r.written with slots := r.written.slots.set k true h } }

/-- `T_PROC` (R202). Steps 2 and 3 write different registers, and steps 3 and 4 use the corrected values of step 1,
computed from the state before the operation. -/
def tProcEffect (c : Config) (r : Registers c.windowN) : Host.Outcome (Effect c.windowN) Fault Refusal :=
  if h : r.bufIdx.toNat < Config.bufferSlots then
    .next
      { regs :=
          { (r.append c (r.tickOut c) r.bufIdx.toNat h) with
            window := (r.trackOffset c).window
            wrPos := (r.trackOffset c).wrPos
            off := (r.trackOffset c).off
            filt := (r.runFilter c).filt
            last := (r.runFilter c).last }
        events := [] }
  else .fault .slotIndex

/-- The meaning of `T_PROC`. -/
def execTProc (s : State) : Host.Outcome State Fault Refusal := s.run (tProcEffect build s.toRegisters)

end Sys2Proof.Machine
end

