-- ==== Sys2Proof/Machine/Ports.lean ====
section
/-! DEFINITION. The output pins of 20_memory.md R62, functions of the registers and of `rst`. -/

namespace Sys2Proof.Machine

/-- The output pins (R62). `txData` is present exactly while a byte is offered (DEDUCED, log 17). -/
structure OutPins where
  /-- `init_req_o`. -/
  initReq : Bool
  /-- `acc_req_o`. -/
  accReq : Bool
  /-- `tmp_req_o`. -/
  tmpReq : Bool
  /-- `tx_valid_o`. -/
  txValid : Bool
  /-- `tx_data_o`. -/
  txData : Option Byte
  /-- `fatal_o`. -/
  fatal : Bool
  deriving DecidableEq, Repr

/-- This tick holds a temperature read: `temp_ctr + 1 = TEMP_PERIOD` (43_scheduler.md R165). -/
def Registers.temperatureTick (c : Config) (r : Registers c.windowN) : Bool := r.tempCtr.toNat + 1 == c.tempPeriod

/-- The output pins: a request is high while its operation is selected and `rst` is low (R62, R63, 70_reset_and_hazards.md
R250), `fatal_o` exactly when `ctl = FATAL` (10_state.md R39), and then every request is low (60_exceptions.md R222). -/
def Registers.outPins (c : Config) (rst : Bool) (r : Registers c.windowN) : OutPins :=
  { initReq := !rst && r.ctl == .uninit
    accReq := !rst && (r.ctl == .calRead || r.ctl == .tickAcc)
    tmpReq := !rst && (r.ctl == .calTemp || (r.ctl == .tickTemp && r.temperatureTick c))
    txValid := !rst && r.ctl == .tx
    txData := if !rst && r.ctl == .tx then r.pkt.toList[r.txIdx.toNat]? else none
    fatal := r.ctl == .fatal }

/-- The selected operation has a handshake that the environment does not answer on these pins (20_memory.md R75). -/
def Registers.waits (c : Config) (r : Registers c.windowN) (p : Pins) : Bool :=
  match r.ctl with
  | .uninit => !p.initAck
  | .calTemp => !p.tmpValid
  | .calRead => !p.accValid
  | .tickAcc => !p.accValid
  | .tickTemp => r.temperatureTick c && !p.tmpValid
  | .tx => !p.txReady
  | .warmup | .calDelay | .calDone | .poll | .tickProc | .encode | .fatal => false

end Sys2Proof.Machine
end

