-- ==== Sys2Proof/Machine/Scheduler.lean ====
section
/-! DEFINITION. The sample scheduler (43_scheduler.md): `POLL`, `T_ACC`, `T_TEMP`. -/

namespace Sys2Proof.Machine

/-- `POLL` (R163): `last_tick` advances by exactly `INTERVAL`, never to the clock value. -/
def pollEffect (c : Config) (r : Registers c.windowN) (p : Pins) : Effect c.windowN :=
  { regs :=
      if due c r.lastTick p.now then { r with lastTick := r.lastTick + BitVec.ofNat 32 c.interval, ctl := .tickAcc }
      else r
    events := [.now p.now] }

/-- The meaning of `POLL`. -/
def execPoll (s : State) : Host.Outcome State Fault Refusal := .next (s.apply (pollEffect build s.toRegisters s.pins))

/-- `T_ACC` (R164): the tick's one acceleration read; holds until it completes. -/
def tAccEffect {n : Nat} (r : Registers n) (p : Pins) : Effect n :=
  if p.accValid then
    if p.accErr then r.raiseFatal .tickAccErr [accEvent p]
    else
      { regs :=
          { r with
            raw := { x := p.accX, y := p.accY, z := p.accZ }
            ctl := .tickTemp
            written := { r.written with raw := true } }
        events := [accEvent p] }
  else r.hold

/-- The meaning of `T_ACC`. -/
def execTAcc (s : State) : Host.Outcome State Fault Refusal := .next (s.apply (tAccEffect s.toRegisters s.pins))

/-- `T_TEMP` (R165): on a 50th tick a temperature read, for which it holds; else only the count. -/
def tTempEffect (c : Config) (r : Registers c.windowN) (p : Pins) : Effect c.windowN :=
  if r.temperatureTick c then
    if p.tmpValid then
      if p.tmpErr then r.raiseFatal .tickTempErr [tempEvent p]
      else
        { regs :=
            { r with
              currentTemp := p.tmpData
              tempCtr := 0
              ctl := .tickProc
              written := { r.written with currentTemp := true } }
          events := [tempEvent p] }
    else r.hold
  else { regs := { r with tempCtr := r.tempCtr + 1, ctl := .tickProc }, events := [] }

/-- The meaning of `T_TEMP`. -/
def execTTemp (s : State) : Host.Outcome State Fault Refusal := .next (s.apply (tTempEffect build s.toRegisters s.pins))

end Sys2Proof.Machine
end

