-- ==== Sys2Proof/Machine/Dispatch.lean ====
section
/-! DEFINITION. One arm per constructor of `Instr`, each one call of its meaning. -/

namespace Sys2Proof.Machine

def exec (i : Instr) (s : State) : Host.Outcome State Fault Refusal :=
  match i with
  | .init => Sys2Proof.Machine.execInit s
  | .warmupWait => Sys2Proof.Machine.execWarmupWait s
  | .calTemp => Sys2Proof.Machine.execCalTemp s
  | .calSample => Sys2Proof.Machine.execCalSample s
  | .calWait => Sys2Proof.Machine.execCalWait s
  | .calFinish => Sys2Proof.Machine.execCalFinish s
  | .poll => Sys2Proof.Machine.execPoll s
  | .tAcc => Sys2Proof.Machine.execTAcc s
  | .tTemp => Sys2Proof.Machine.execTTemp s
  | .tProc => Sys2Proof.Machine.execTProc s
  | .encode => Sys2Proof.Machine.execEncode s
  | .txByte => Sys2Proof.Machine.execTxByte s
  | .reset => Sys2Proof.Machine.execReset s
  | .packet p => Sys2Proof.Machine.execPacket p s

end Sys2Proof.Machine
end

