-- ==== Sys2Proof/Machine/Step.lean ====
section
/-! DEFINITION. One step: one clock edge. -/

namespace Sys2Proof.Machine

/-- One clock edge (45_orchestrator.md R206, R207; DESIGN CHOICE, log 4). The bytes that `rst` and `ctl` select are
decoded and the instruction executes, or holds, on the pins of this edge; `exec` itself does not look at `ctl` (DESIGN
CHOICE, log 13). In `FATAL` nothing is selected and every register stays (60_exceptions.md R222; DEDUCED, log 5). -/
def step (s : State) : Host.Outcome State Fault Refusal :=
  match decode s.selection with
  | .ok i => afterEdge (exec i s)
  | .error _ => .next s.nextEdge

/-- `s` with an instruction placed so that the very next step runs it (DESIGN CHOICE, log 9). -/
def State.withFetchWord (s : State) (nbits w : Nat) : State := s.placeWord nbits w

end Sys2Proof.Machine
end

