-- ==== Sys2Proof/Machine/Relation.lean ====
section
/-! DEFINITION. The step relation in the shape 45_orchestrator.md R206 gives it, `step (cfg) (state) (input) = outcome`,
over the SPC's registers alone (10_state.md R44) and for every configuration (00_scope.md R10), and runs under an
environment given edge by edge. `Machine.step` is this relation for the built configuration, with the environment's
answers taken from `State` (lemma `step_eq_coreStep`). -/

namespace Sys2Proof.Machine

/-- The effect of an operation on the registers, with the pins of the edge as its input. -/
def operate (c : Config) (i : Instr) (r : Registers c.windowN) (p : Pins) :
    Host.Outcome (Effect c.windowN) Fault Refusal :=
  match i with
  | .init => .next (initEffect r p)
  | .warmupWait => .next (warmupWaitEffect c r p)
  | .calTemp => .next (calTempEffect r p)
  | .calSample => .next (calSampleEffect r p)
  | .calWait => .next (calWaitEffect c r p)
  | .calFinish => .next (calFinishEffect c r p)
  | .poll => .next (pollEffect c r p)
  | .tAcc => .next (tAccEffect r p)
  | .tTemp => .next (tTempEffect c r p)
  | .tProc => tProcEffect c r
  | .encode => .next (encodeEffect c r)
  | .txByte => txByteEffect c r p
  | .reset => .next (resetEffect c)
  | .packet f => .next (packetEffect c f r)

/-- `step (cfg) (state) (input) = outcome` (R206). Where nothing is selected the registers stay (60_exceptions.md R222;
DEDUCED, log 5). -/
def coreStep (c : Config) (r : Registers c.windowN) (p : Pins) :
    Host.Outcome (Effect c.windowN) Fault Refusal :=
  match decode (r.selection p.rst) with
  | .ok i => operate c i r p
  | .error _ => .next r.hold

/-- The registers after `n` clock edges in the environment `env`; none once the model has stopped. -/
def coreRun (c : Config) (env : Nat → Pins) (r : Registers c.windowN) (n : Nat) :
    Option (Registers c.windowN) :=
  match n with
  | 0 => some r
  | k + 1 =>
    match coreRun c env r k with
    | some q =>
      match coreStep c q (env k) with
      | .next e => some e.regs
      | .fault _ => none
      | .refused _ => none
    | none => none

end Sys2Proof.Machine
end

