-- ==== Sys2Proof/Safety.lean ====
section
/-! DEFINITION. What counts as a safe run and the notions statements are written in: the phases, the invariants of
45_orchestrator.md R210, the written registers of 10_state.md R43, the write rights of R41, the transition graph of
R205, enabledness, the environment's answers and the progress assumptions of R212. -/

namespace Sys2Proof.Machine

/-! ## Phases and selection -/

/-- The Sampling phase (45_orchestrator.md R205). -/
def Ctl.sampling (c : Ctl) : Bool :=
  match c with
  | .poll | .tickAcc | .tickTemp | .tickProc | .encode | .tx => true
  | .uninit | .warmup | .calTemp | .calRead | .calDelay | .calDone | .fatal => false

/-- The operation each control state selects (30_encoding.md R104); `FATAL` selects none. -/
def Ctl.operation (c : Ctl) : Option Instr :=
  match c with
  | .uninit => some .init
  | .warmup => some .warmupWait
  | .calTemp => some .calTemp
  | .calRead => some .calSample
  | .calDelay => some .calWait
  | .calDone => some .calFinish
  | .poll => some .poll
  | .tickAcc => some .tAcc
  | .tickTemp => some .tTemp
  | .tickProc => some .tProc
  | .encode => some .encode
  | .tx => some .txByte
  | .fatal => none

/-- In control state `c`, without reset, a step executes `i`. -/
def SelectedBy (c : Ctl) (i : Instr) : Prop :=
  ∀ s : State, s.ctl = c → s.pins.rst = false → step s = afterEdge (exec i s)

/-- A safe state: no fault has happened (60_exceptions.md R236: "a run that reaches it has gone wrong"). -/
def Registers.Safe {n : Nat} (r : Registers n) : Prop := r.ctl ≠ .fatal ∧ r.fatalCause = .none

/-- The selected operation waits for its handshake at the present edge (20_memory.md R75). -/
def State.holding (s : State) : Bool := s.toRegisters.waits build s.pins

/-! ## The environment -/

/-- The pins `k` edges ahead of the present one. -/
def State.pinsAt (s : State) (k : Nat) : Pins := (s.inputs[k]?).getD (Config.envPins (s.cycle + k))

/-- An environment that does not reset, answers every handshake at this edge and reports no error. -/
def cooperative (p : Pins) : Bool :=
  !p.rst && p.initAck && p.accValid && !p.accErr && p.tmpValid && !p.tmpErr && p.txReady

/-- Microseconds from `start` to `t` on the 32-bit clock, as a number (43_scheduler.md R161). -/
def usSince (start t : U32) : Nat := (t.toNat + 2 ^ 32 - start.toNat) % 2 ^ 32

/-! ## Invariants of reachable states (45_orchestrator.md R210, 10_state.md R36) -/

/-- In the range of an `i16`. -/
def InI16 (v : Int) : Prop := -32768 ≤ v ∧ v ≤ 32767

/-- A sum of `n` raw readings (10_state.md R32). -/
def SumOf (n : Nat) (v : Int) : Prop := -32768 * (n : Int) ≤ v ∧ v ≤ 32767 * (n : Int)

/-- A corrected value's range (45_orchestrator.md R203). -/
def InCorrected (v : Int) : Prop := -65535 ≤ v ∧ v ≤ 65535

/-- A property of the three values of a buffer slot. -/
def SlotSatisfies (buf : Lanes Samples) (P : I32 → Prop) (k : Nat) (h : k < 5) : Prop :=
  P buf.e[k] ∧ P buf.n[k] ∧ P buf.z[k]

/-- The ranges of R210 (1) to (4), (6), (9), of `last_*` in (7) and of the slots in (8) with `cfg_hpf = 0`, the
`i16` range of the window's entries (R35), the window invariant of R36, and what the calibration keeps on the way there.
(5) is the type of `wr_pos`. -/
structure Registers.Inv {n : Nat} (r : Registers n) : Prop where
  bufIdx_range : r.bufIdx.toNat ≤ 5
  bufIdx_full : r.bufIdx.toNat = 5 ↔ r.ctl = .encode
  txIdx_range : r.txIdx.toNat ≤ 65
  tempCtr_range : r.tempCtr.toNat ≤ 49
  calCount_range : r.calCount.toNat ≤ 200
  fatal_cause : r.fatalCause ≠ .none ↔ r.ctl = .fatal
  more_samples : r.ctl = .calRead → r.calCount.toNat < 200
  all_samples : r.ctl = .calDone → r.calCount.toNat = 200
  sums : r.ctl = .calRead ∨ r.ctl = .calDelay ∨ r.ctl = .calDone →
    SumOf r.calCount.toNat r.sum.x.toInt ∧ SumOf r.calCount.toNat r.sum.y.toInt ∧ SumOf r.calCount.toNat r.sum.z.toInt
  offsets : r.ctl.sampling = true → InI16 r.off.x.toInt ∧ InI16 r.off.y.toInt ∧ InI16 r.off.z.toInt
  window_entries : r.ctl.sampling = true → ∀ (i : Nat) (h : i < n), InI16 r.window[i].toInt
  window_mean : r.ctl.sampling = true → r.off.z = windowMean r.window
  last_range : InCorrected r.last.e.toInt ∧ InCorrected r.last.n.toInt ∧ InCorrected r.last.z.toInt
  slots : r.ctl.sampling = true → r.cfgHpf = false → ∀ (k : Nat) (h : k < 5), k < r.bufIdx.toNat →
    SlotSatisfies r.buf (fun v => InCorrected v.toInt) k h

/-- A finite binary32 value of magnitude at most `m` (an integer). -/
def FiniteWithin (m : Nat) (f : F32) : Prop := isFinite f = true ∧ magnitude f ≤ m * 2 ^ 149

/-- The filter registers' range (42_highpass.md R149) at a bound the filter step keeps, 26 100 000, below `2.7 * 10^7`
and `2^25`, and with `cfg_hpf = 1` that of the filled buffer slots (45_orchestrator.md R210 (7), (8)). -/
def Registers.FilterBounded {n : Nat} (r : Registers n) : Prop :=
  (FiniteWithin 26100000 r.filt.e ∧ FiniteWithin 26100000 r.filt.n ∧ FiniteWithin 26100000 r.filt.z) ∧
  (r.ctl.sampling = true → r.cfgHpf = true → ∀ (k : Nat) (h : k < 5), k < r.bufIdx.toNat →
    SlotSatisfies r.buf (fun v => |v.toInt| ≤ 26100000) k h)

/-- The filter state is untouched: "the six filter registers keep their reset values" (70_reset_and_hazards.md R254). -/
def Registers.FilterAtReset {n : Nat} (r : Registers n) : Prop :=
  r.filt = { e := 0, n := 0, z := 0 } ∧ r.last = { e := 0, n := 0, z := 0 }

/-- Where R254 says the filter registers hold their reset values: before sampling, and for a whole session with
`cfg_hpf = 0`. -/
def Registers.FilterIdle {n : Nat} (r : Registers n) : Prop :=
  (r.ctl = .uninit ∨ r.cfgHpf = false ∨ (r.ctl.sampling = false ∧ r.ctl ≠ .fatal)) → r.FilterAtReset

/-- While a packet is being sent, the bytes before `tx_idx` are the last events of the trace (20_memory.md R72). -/
def State.PacketOnWire (s : State) : Prop :=
  s.ctl = .tx → ∃ before : List Event, s.trace = before ++ (s.pkt.toList.take s.txIdx.toNat).map Event.tx

/-! ## Written registers (10_state.md R43) -/

/-- Each register of unspecified reset value has been written by the time its first reader is selected (the table of
R43). -/
structure Registers.WrittenInv {n : Nat} (r : Registers n) : Prop where
  straps : r.ctl ≠ .uninit → r.ctl ≠ .fatal → r.written.straps = true
  delayStart : r.ctl = .warmup ∨ r.ctl = .calDelay → r.written.delayStart = true
  calibrating : r.ctl = .calRead ∨ r.ctl = .calDelay ∨ r.ctl = .calDone →
    r.written.calibTemp = true ∧ r.written.sums = true
  sampling : r.ctl.sampling = true →
    r.written.offsets = true ∧ r.written.window = true ∧ r.written.lastTick = true
  raw : r.ctl = .tickTemp ∨ r.ctl = .tickProc → r.written.raw = true
  slots : r.ctl.sampling = true → ∀ (k : Nat) (h : k < 5), k < r.bufIdx.toNat → r.written.slots[k] = true
  full : r.ctl = .encode → r.bufIdx.toNat = 5
  pkt : r.ctl = .tx → r.written.pkt = true

/-- Two states that differ at most in registers no operation has written since reset. -/
structure AgreeWritten (s t : State) : Prop where
  ctl : s.ctl = t.ctl
  calCount : s.calCount = t.calCount
  bufIdx : s.bufIdx = t.bufIdx
  txIdx : s.txIdx = t.txIdx
  tempCtr : s.tempCtr = t.tempCtr
  fatalCause : s.fatalCause = t.fatalCause
  filt : s.filt = t.filt
  last : s.last = t.last
  written : s.written = t.written
  inputs : s.inputs = t.inputs
  cycle : s.cycle = t.cycle
  trace : s.trace = t.trace
  straps : s.written.straps = true → s.cfgHpf = t.cfgHpf ∧ s.cfgDyn = t.cfgDyn
  delayStart : s.written.delayStart = true → s.delayStart = t.delayStart
  calibTemp : s.written.calibTemp = true → s.calibTemp = t.calibTemp
  sums : s.written.sums = true → s.sum = t.sum
  offsets : s.written.offsets = true → s.off = t.off
  currentTemp : s.written.currentTemp = true → s.currentTemp = t.currentTemp
  window : s.written.window = true → s.window = t.window ∧ s.wrPos = t.wrPos
  lastTick : s.written.lastTick = true → s.lastTick = t.lastTick
  raw : s.written.raw = true → s.raw = t.raw
  slots : ∀ (k : Nat) (h : k < 5), s.written.slots[k] = true →
    s.buf.e[k] = t.buf.e[k] ∧ s.buf.n[k] = t.buf.n[k] ∧ s.buf.z[k] = t.buf.z[k]
  pkt : s.written.pkt = true → s.pkt = t.pkt

/-! ## Write rights (10_state.md R41) -/

/-- The rows of the table of R41. -/
inductive RegGroup where
  | ctl
  | straps
  | delayStart
  | calibTemp
  | sums
  | calCount
  | offXY
  | offZ
  | currentTemp
  | window
  | lastTick
  | tempCtr
  | raw
  | filter
  | buffers
  | bufIdx
  | pkt
  | txIdx
  | fatalCause
  deriving DecidableEq, Repr

/-- The group's registers hold the same values in both. -/
def RegGroup.same {n : Nat} (g : RegGroup) (s t : Registers n) : Prop :=
  match g with
  | .ctl => t.ctl = s.ctl
  | .straps => t.cfgHpf = s.cfgHpf ∧ t.cfgDyn = s.cfgDyn
  | .delayStart => t.delayStart = s.delayStart
  | .calibTemp => t.calibTemp = s.calibTemp
  | .sums => t.sum = s.sum
  | .calCount => t.calCount = s.calCount
  | .offXY => t.off.x = s.off.x ∧ t.off.y = s.off.y
  | .offZ => t.off.z = s.off.z
  | .currentTemp => t.currentTemp = s.currentTemp
  | .window => t.window = s.window ∧ t.wrPos = s.wrPos
  | .lastTick => t.lastTick = s.lastTick
  | .tempCtr => t.tempCtr = s.tempCtr
  | .raw => t.raw = s.raw
  | .filter => t.filt = s.filt ∧ t.last = s.last
  | .buffers => t.buf = s.buf
  | .bufIdx => t.bufIdx = s.bufIdx
  | .pkt => t.pkt = s.pkt
  | .txIdx => t.txIdx = s.txIdx
  | .fatalCause => t.fatalCause = s.fatalCause

/-- The registers an operation may write: the "w" and "rw" entries of the table of R41. `RESET` writes every register
(70_reset_and_hazards.md R250); `PACKET` writes what `ENCODE` does (DESIGN CHOICE, log 7). -/
def mayWrite (i : Instr) : List RegGroup :=
  match i with
  | .init => [.ctl, .straps, .delayStart]
  | .warmupWait => [.ctl]
  | .calTemp => [.ctl, .calibTemp, .sums, .calCount, .fatalCause]
  | .calSample => [.ctl, .delayStart, .sums, .calCount, .fatalCause]
  | .calWait => [.ctl]
  | .calFinish => [.ctl, .offXY, .offZ, .currentTemp, .window, .lastTick, .tempCtr, .bufIdx]
  | .poll => [.ctl, .lastTick]
  | .tAcc => [.ctl, .raw, .fatalCause]
  | .tTemp => [.ctl, .currentTemp, .tempCtr, .fatalCause]
  | .tProc => [.ctl, .offZ, .window, .filter, .buffers, .bufIdx]
  | .encode => [.ctl, .bufIdx, .pkt, .txIdx]
  | .txByte => [.ctl, .txIdx]
  | .reset => [.ctl, .straps, .delayStart, .calibTemp, .sums, .calCount, .offXY, .offZ, .currentTemp, .window, .lastTick,
      .tempCtr, .raw, .filter, .buffers, .bufIdx, .pkt, .txIdx, .fatalCause]
  | .packet _ => [.ctl, .bufIdx, .pkt, .txIdx]

/-! ## The transition graph (45_orchestrator.md R205) -/

/-- The edges of the table of R205, under their conditions at state `s`, with the two ways of staying put that R75 and
R222 add: a hold (log 4), and `FATAL` without reset (log 5). -/
inductive Edge (s : State) : Ctl → Ctl → Prop where
  | reset (c : Ctl) : s.pins.rst = true → Edge s c .uninit
  | held (c : Ctl) : s.pins.rst = false → s.holding = true → Edge s c c
  | init : s.pins.rst = false → s.holding = false → Edge s .uninit .warmup
  | warmupWait : s.pins.rst = false → usSince s.delayStart s.pins.now < build.warmupUs → Edge s .warmup .warmup
  | warmupGo : s.pins.rst = false → build.warmupUs ≤ usSince s.delayStart s.pins.now → Edge s .warmup .calTemp
  | calTempOk : s.pins.rst = false → s.holding = false → s.pins.tmpErr = false → Edge s .calTemp .calRead
  | calTempErr : s.pins.rst = false → s.holding = false → s.pins.tmpErr = true → Edge s .calTemp .fatal
  | sampleOk : s.pins.rst = false → s.holding = false → s.pins.accErr = false → Edge s .calRead .calDelay
  | sampleErr : s.pins.rst = false → s.holding = false → s.pins.accErr = true → Edge s .calRead .fatal
  | delayWait : s.pins.rst = false → usSince s.delayStart s.pins.now < build.calDelayUs → Edge s .calDelay .calDelay
  | delayMore : s.pins.rst = false → build.calDelayUs ≤ usSince s.delayStart s.pins.now → s.calCount.toNat < 200 →
      Edge s .calDelay .calRead
  | delayDone : s.pins.rst = false → build.calDelayUs ≤ usSince s.delayStart s.pins.now → s.calCount.toNat = 200 →
      Edge s .calDelay .calDone
  | finish : s.pins.rst = false → Edge s .calDone .poll
  | idle : s.pins.rst = false → usSince s.lastTick s.pins.now < 20000 → Edge s .poll .poll
  | fire : s.pins.rst = false → 20000 ≤ usSince s.lastTick s.pins.now → Edge s .poll .tickAcc
  | accOk : s.pins.rst = false → s.holding = false → s.pins.accErr = false → Edge s .tickAcc .tickTemp
  | accErr : s.pins.rst = false → s.holding = false → s.pins.accErr = true → Edge s .tickAcc .fatal
  | tempOk : s.pins.rst = false → s.holding = false → (s.tempCtr.toNat + 1 = 50 → s.pins.tmpErr = false) →
      Edge s .tickTemp .tickProc
  | tempErr : s.pins.rst = false → s.holding = false → s.tempCtr.toNat + 1 = 50 → s.pins.tmpErr = true →
      Edge s .tickTemp .fatal
  | procMore : s.pins.rst = false → s.bufIdx.toNat < 4 → Edge s .tickProc .poll
  | procFull : s.pins.rst = false → s.bufIdx.toNat = 4 → Edge s .tickProc .encode
  | encode : s.pins.rst = false → Edge s .encode .tx
  | txMore : s.pins.rst = false → s.holding = false → s.txIdx.toNat < 65 → Edge s .tx .tx
  | txLast : s.pins.rst = false → s.holding = false → s.txIdx.toNat = 65 → Edge s .tx .poll
  | fatal : s.pins.rst = false → Edge s .fatal .fatal

/-! ## Progress assumptions (45_orchestrator.md R212) -/

/-- The environment never resets and no sensor read fails; R212 calls these what the source "simply assumes". -/
def NeverResetsNorFails (env : Nat → Pins) : Prop :=
  ∀ k, (env k).rst = false ∧ (env k).accErr = false ∧ (env k).tmpErr = false

/-- F1 of R212: "every handshake the SPC starts is eventually completed", along the run from `r`. -/
def HandshakesComplete (c : Config) (env : Nat → Pins) (r : Registers c.windowN) : Prop :=
  ∀ n q, coreRun c env r n = some q → ∃ k, q.waits c (env (n + k)) = false

/-- The clock's contract of 20_memory.md R64: `now_us_i` shows a true time `T`, which never decreases, modulo `2^32`. -/
def ShowsTrueTime (env : Nat → Pins) (T : Nat → Nat) : Prop :=
  (∀ k, (env k).now = BitVec.ofNat 32 (T k)) ∧ ∀ k, T k ≤ T (k + 1)

/-- F2 of R212: "true time eventually passes any bound". -/
def TimePasses (T : Nat → Nat) : Prop := ∀ b, ∃ k, b ≤ T k

/-- True time advances by less than `2^31` microseconds from one clock edge to the next, so that no poll misses a whole
turn of the 32-bit clock (70_reset_and_hazards.md R260); R212 does not name it, and without it time can pass unseen. -/
def ClockIsWatched (T : Nat → Nat) : Prop := ∀ k, T (k + 1) < T k + 2 ^ 31

/-- At edge `k` of the run from `r`, `ctl` goes from `a` to `b`. -/
def MovesAt (c : Config) (env : Nat → Pins) (r : Registers c.windowN) (k : Nat) (a b : Ctl) : Prop :=
  ∃ q q', coreRun c env r k = some q ∧ coreRun c env r (k + 1) = some q' ∧ q.ctl = a ∧ q'.ctl = b

/-! ## Events and runs -/

/-- A reading of the clock. -/
def Event.isNow : Event → Bool
  | .now _ => true
  | _ => false

/-- An acceleration read. -/
def Event.isAcc : Event → Bool
  | .acc _ _ _ _ => true
  | _ => false

/-- A temperature read. -/
def Event.isTemp : Event → Bool
  | .temp _ _ => true
  | _ => false

/-- A byte handed to the transport. -/
def Event.isTx : Event → Bool
  | .tx _ => true
  | _ => false

/-- The environment's initialisation. -/
def Event.isInit : Event → Bool
  | .envInit => true
  | _ => false

/-- Instructions executed one after another on one state, as the operation lines of a run (30_encoding.md R106; holds
and other edges are not written). -/
def execAll (l : List Instr) (s : State) : Host.Outcome State Fault Refusal :=
  match l with
  | [] => .next s
  | i :: rest =>
    match exec i s with
    | .next t => execAll rest t
    | .fault r => .fault r
    | .refused r => .refused r

/-- `n` steps of the machine. -/
def steps (n : Nat) (s : State) : Host.Outcome State Fault Refusal :=
  match n with
  | 0 => .next s
  | k + 1 =>
    match step s with
    | .next t => steps k t
    | .fault r => .fault r
    | .refused r => .refused r

/-- How many ticks the scheduler fires in `n` steps (43_scheduler.md R166). -/
def fires (n : Nat) (s : State) : Nat :=
  match n with
  | 0 => 0
  | k + 1 =>
    match step s with
    | .next t => (if s.ctl = .poll ∧ t.ctl = .tickAcc then 1 else 0) + fires k t
    | .fault _ => 0
    | .refused _ => 0

end Sys2Proof.Machine
end

