-- ==== Sys2Proof/Certificates/Slice0/Obligations.lean ====
section
/-! DEFINITION. The statements for the provers. The per-operation statements give the WHOLE next state, so each is the
operation's result, its frame and its completion at once. -/

open Sys2Proof Sys2Proof.Machine

/-! ## The operations -/

/-- 45_orchestrator.md R200: `INIT` waits for `init_ack_i`, then `EnvInit`, the straps, `Now`, `WARMUP`. -/
def Obligations.InitLatchesStrapsAndStartsWarmup : Prop :=
  SelectedBy .uninit .init ∧ ∀ s : State,
    (s.pins.initAck = true → exec .init s = .next
      { s with
        cfgHpf := s.pins.cfgHpf
        cfgDyn := s.pins.cfgDyn
        delayStart := s.pins.now
        ctl := .warmup
        written := { s.written with straps := true, delayStart := true }
        trace := s.trace ++ [.envInit, .now s.pins.now] }) ∧
    (s.pins.initAck = false → exec .init s = .next s)

/-- 45_orchestrator.md R201: one poll of the warm-up delay, for whatever `WARMUP_US` the build has. -/
def Obligations.WarmupWaitPollsTheDelay : Prop :=
  SelectedBy .warmup .warmupWait ∧ ∀ s : State, exec .warmupWait s = .next
    { s with
      ctl := if build.warmupUs ≤ usSince s.delayStart s.pins.now then .calTemp else s.ctl
      trace := s.trace ++ [.now s.pins.now] }

/-- 41_calibrator.md R126: the temperature is stored whatever its bits, the sums and the count are cleared; an error
flag raises `Fatal(CAL_TEMP_ERR)` and then only `ctl` and `fatal_cause` change. -/
def Obligations.CalTempStoresReferenceAndClearsSums : Prop :=
  SelectedBy .calTemp .calTemp ∧ ∀ s : State,
    (s.pins.tmpValid = true → s.pins.tmpErr = false → exec .calTemp s = .next
      { s with
        calibTemp := s.pins.tmpData
        sum := { x := 0, y := 0, z := 0 }
        calCount := 0
        ctl := .calRead
        written := { s.written with calibTemp := true, sums := true }
        trace := s.trace ++ [.temp s.pins.tmpData false] }) ∧
    (s.pins.tmpValid = true → s.pins.tmpErr = true → exec .calTemp s = .next
      { s with ctl := .fatal, fatalCause := .calTempErr, trace := s.trace ++ [.temp s.pins.tmpData true] }) ∧
    (s.pins.tmpValid = false → exec .calTemp s = .next s)

/-- After 41_calibrator.md R127: the sign-extended reading is added, the count goes up by one, the delay starts; on the
error flag `Fatal(CAL_ACC_ERR)` and no `Now` event. In states where a sum passes 32 bits or the count 255, which no run
reaches and for which R127 states no result, the wrapped value is the model's (log 21, log 14). -/
def Obligations.CalSampleAddsOneReading : Prop :=
  SelectedBy .calRead .calSample ∧ ∀ s : State,
    (s.pins.accValid = true → s.pins.accErr = false → exec .calSample s = .next
      { s with
        sum :=
          { x := BitVec.ofInt 32 (s.sum.x.toInt + s.pins.accX.toInt)
            y := BitVec.ofInt 32 (s.sum.y.toInt + s.pins.accY.toInt)
            z := BitVec.ofInt 32 (s.sum.z.toInt + s.pins.accZ.toInt) }
        calCount := s.calCount + 1
        delayStart := s.pins.now
        ctl := .calDelay
        written := { s.written with sums := true, delayStart := true }
        trace := s.trace ++ [.acc s.pins.accX s.pins.accY s.pins.accZ false, .now s.pins.now] }) ∧
    (s.pins.accValid = true → s.pins.accErr = true → exec .calSample s = .next
      { s with
        ctl := .fatal
        fatalCause := .calAccErr
        trace := s.trace ++ [.acc s.pins.accX s.pins.accY s.pins.accZ true] }) ∧
    (s.pins.accValid = false → exec .calSample s = .next s)

/-- 41_calibrator.md R128: one poll of the inter-sample delay, for whatever `CAL_DELAY_US` the build has. -/
def Obligations.CalWaitPollsTheIntersampleDelay : Prop :=
  SelectedBy .calDelay .calWait ∧ ∀ s : State, exec .calWait s = .next
    { s with
      ctl :=
        if build.calDelayUs ≤ usSince s.delayStart s.pins.now then
          (if s.calCount.toNat = 200 then .calDone else .calRead)
        else s.ctl
      trace := s.trace ++ [.now s.pins.now] }

/-- 41_calibrator.md R129: the offsets are the means truncated toward zero, the window is full of the vertical one, the
tick clock is seeded; the filter registers are not touched. -/
def Obligations.CalFinishSetsOffsetsAndSeedsTheClock : Prop :=
  SelectedBy .calDone .calFinish ∧ ∀ s : State, exec .calFinish s = .next
    { s with
      off :=
        { x := BitVec.ofInt 32 (s.sum.x.toInt.tdiv 200)
          y := BitVec.ofInt 32 (s.sum.y.toInt.tdiv 200)
          z := BitVec.ofInt 32 (s.sum.z.toInt.tdiv 200) }
      currentTemp := s.calibTemp
      window := Vector.replicate build.windowN (BitVec.ofInt 32 (s.sum.z.toInt.tdiv 200))
      wrPos := ⟨0, build.windowN_pos⟩
      lastTick := s.pins.now
      tempCtr := 0
      bufIdx := 0
      ctl := .poll
      written := { s.written with offsets := true, currentTemp := true, window := true, lastTick := true }
      trace := s.trace ++ [.now s.pins.now] }

/-- 43_scheduler.md R163: a due poll advances `last_tick` by exactly 20000 modulo `2^32`, however late it is; an idle
one changes nothing. -/
def Obligations.PollFiresAdditively : Prop :=
  SelectedBy .poll .poll ∧ ∀ s : State,
    (20000 ≤ usSince s.lastTick s.pins.now → exec .poll s = .next
      { s with
        lastTick := BitVec.ofNat 32 (s.lastTick.toNat + 20000)
        ctl := .tickAcc
        trace := s.trace ++ [.now s.pins.now] }) ∧
    (usSince s.lastTick s.pins.now < 20000 → exec .poll s = .next
      { s with trace := s.trace ++ [.now s.pins.now] })

/-- 43_scheduler.md R164: the tick's one acceleration read. -/
def Obligations.TAccStoresOneReading : Prop :=
  SelectedBy .tickAcc .tAcc ∧ ∀ s : State,
    (s.pins.accValid = true → s.pins.accErr = false → exec .tAcc s = .next
      { s with
        raw := { x := s.pins.accX, y := s.pins.accY, z := s.pins.accZ }
        ctl := .tickTemp
        written := { s.written with raw := true }
        trace := s.trace ++ [.acc s.pins.accX s.pins.accY s.pins.accZ false] }) ∧
    (s.pins.accValid = true → s.pins.accErr = true → exec .tAcc s = .next
      { s with
        ctl := .fatal
        fatalCause := .tickAccErr
        trace := s.trace ++ [.acc s.pins.accX s.pins.accY s.pins.accZ true] }) ∧
    (s.pins.accValid = false → exec .tAcc s = .next s)

/-- After 43_scheduler.md R165: the temperature is read exactly when `temp_ctr` is 49; on the other ticks the operation has
no transaction and never holds. For `temp_ctr` above 49, which no run reaches (10_state.md R26), R165 states no result,
and the count that goes on, at 63 wrapping to 0, is the model's (log 14). -/
def Obligations.TTempReadsEveryFiftiethTick : Prop :=
  SelectedBy .tickTemp .tTemp ∧ ∀ s : State,
    (s.tempCtr.toNat ≠ 49 → exec .tTemp s = .next { s with tempCtr := s.tempCtr + 1, ctl := .tickProc }) ∧
    (s.tempCtr.toNat = 49 → s.pins.tmpValid = true → s.pins.tmpErr = false → exec .tTemp s = .next
      { s with
        currentTemp := s.pins.tmpData
        tempCtr := 0
        ctl := .tickProc
        written := { s.written with currentTemp := true }
        trace := s.trace ++ [.temp s.pins.tmpData false] }) ∧
    (s.tempCtr.toNat = 49 → s.pins.tmpValid = true → s.pins.tmpErr = true → exec .tTemp s = .next
      { s with ctl := .fatal, fatalCause := .tickTempErr, trace := s.trace ++ [.temp s.pins.tmpData true] }) ∧
    (s.tempCtr.toNat = 49 → s.pins.tmpValid = false → exec .tTemp s = .next s)

/-- After 45_orchestrator.md R202, all four strap settings. `v` are the corrected values of step 1, `gate` the condition of
step 2, `f` the accumulators of step 3. Where `raw - off` passes 32 bits, which no run reaches, the wrapped difference is
the model's (log 21); a reading enters the 32-bit window sign-extended (log 15, log 22); the numerics of `f` are the
spec's presumed ones (log 16, 92_eei_decisions.md D12). -/
def Obligations.TProcCorrectsTracksFiltersAppends : Prop :=
  SelectedBy .tickProc .tProc ∧ ∀ (s : State) (v : Lanes I32) (f : Lanes F32) (gate : Prop) [Decidable gate] (k : Nat)
    (hk : k < 5),
    v = { e := BitVec.ofInt 32 (s.raw.x.toInt - s.off.x.toInt)
          n := BitVec.ofInt 32 (s.raw.y.toInt - s.off.y.toInt)
          z := BitVec.ofInt 32 (s.raw.z.toInt - s.off.z.toInt) } →
    f = { e := fmul 0x3F7EB852 (fsub (fadd s.filt.e (i2f v.e)) (i2f s.last.e))
          n := fmul 0x3F7EB852 (fsub (fadd s.filt.n (i2f v.n)) (i2f s.last.n))
          z := fmul 0x3F7EB852 (fsub (fadd s.filt.z (i2f v.z)) (i2f s.last.z)) } →
    (gate ↔ s.cfgDyn = true ∧ |v.e.toInt| < 1000 ∧ |v.n.toInt| < 1000 ∧ |v.z.toInt| < 1000) →
    k = s.bufIdx.toNat →
    exec .tProc s = .next
      { s with
        window := if gate then s.window.set s.wrPos.val (s.raw.z.signExtend 32) s.wrPos.isLt else s.window
        wrPos :=
          if gate then ⟨(s.wrPos.val + 1) % build.windowN, Nat.mod_lt _ build.windowN_pos⟩ else s.wrPos
        off :=
          if gate then
            { s.off with
              z := BitVec.ofInt 32
                (((s.window.set s.wrPos.val (s.raw.z.signExtend 32) s.wrPos.isLt).toList.map BitVec.toInt).sum.tdiv
                  build.windowN) }
          else s.off
        filt := if s.cfgHpf then f else s.filt
        last := if s.cfgHpf then v else s.last
        buf :=
          { e := s.buf.e.set k (if s.cfgHpf then f2i f.e else v.e)
            n := s.buf.n.set k (if s.cfgHpf then f2i f.n else v.n)
            z := s.buf.z.set k (if s.cfgHpf then f2i f.z else v.z) }
        bufIdx := s.bufIdx + 1
        ctl := if k = 4 then .encode else .poll
        written := { s.written with slots := s.written.slots.set k true } }

/-- 44_encoder.md R186: the packet of the three buffers, byte by byte as R184 lists it; the slots keep their values. -/
def Obligations.EncodeBuildsThePacket : Prop :=
  SelectedBy .encode .encode ∧ ∀ s : State, ∃ p : Packet,
    p.toList = [0xFC, 0x1B] ++ axisBytes s.buf.z ++ axisBytes s.buf.e ++ axisBytes s.buf.n
      ++ [checksum s.buf.z, checksum s.buf.e, checksum s.buf.n, 0x00] ∧
    exec .encode s = .next
      { s with pkt := p, bufIdx := 0, txIdx := 0, ctl := .tx, written := { s.written with pkt := true } }

/-- 44_encoder.md R187: the byte at `tx_idx` goes out once the transport is ready; after byte 65 `tx_idx` stays 65 and
control returns to `POLL`. -/
def Obligations.TxByteSendsTheNextByte : Prop :=
  SelectedBy .tx .txByte ∧ ∀ (s : State) (h : s.txIdx.toNat < 66),
    (s.pins.txReady = true → s.txIdx.toNat < 65 → exec .txByte s = .next
      { s with
        txIdx := BitVec.ofNat 7 (s.txIdx.toNat + 1)
        trace := s.trace ++ [.tx (s.pkt[s.txIdx.toNat]'h)] }) ∧
    (s.pins.txReady = true → s.txIdx.toNat = 65 → exec .txByte s = .next
      { s with ctl := .poll, trace := s.trace ++ [.tx (s.pkt[s.txIdx.toNat]'h)] }) ∧
    (s.pins.txReady = false → exec .txByte s = .next s)

/-- 70_reset_and_hazards.md R250: at an edge with `rst` high, whatever was selected, every register takes its value of
10_state.md R42, as far as that gives values; every other register is without a value, here: marked unwritten (log 2).
The outputs of the reset state while `rst` is high are all 0. The environment's pins and the trace are no registers. -/
def Obligations.ResetLeavesTheResetValues : Prop :=
  (∀ s : State, s.pins.rst = true → step s = afterEdge (exec .reset s)) ∧
  ∀ s : State, ∃ t : State, exec .reset s = .next t ∧
    t.ctl = .uninit ∧ t.fatalCause = .none ∧
    t.filt = { e := 0, n := 0, z := 0 } ∧ t.last = { e := 0, n := 0, z := 0 } ∧
    t.calCount = 0 ∧ t.bufIdx = 0 ∧ t.txIdx = 0 ∧ t.tempCtr = 0 ∧
    t.written = Written.nothing ∧
    t.outPins build true =
      { initReq := false, accReq := false, tmpReq := false, txValid := false, txData := none, fatal := false } ∧
    t.trace = s.trace ∧ t.inputs = s.inputs ∧ t.cycle = s.cycle

/-- The model's choice for the table's `PACKET` row (log 7): executing a packet leaves its 66 bytes, with the checksums
of its own integers (44_encoder.md R184), in the packet register, ready to be sent, as `ENCODE` does. -/
def Obligations.PacketStandsReadyToBeSent : Prop :=
  ∀ (p : PacketFields) (s : State), ∃ b : Packet,
    b.toList = [0xFC, 0x1B] ++ axisBytes p.z ++ axisBytes p.e ++ axisBytes p.n
      ++ [checksum p.z, checksum p.e, checksum p.n, 0x00] ∧
    exec (.packet p) s = .next
      { s with pkt := b, bufIdx := 0, txIdx := 0, ctl := .tx, written := { s.written with pkt := true } }

/-- The model's stops (log 12): an index the spec says cannot occur ends the run by name. The third array's index,
`wr_pos`, is of a type that holds no other value (log 14). -/
def Obligations.ImpossibleIndexStopsByName : Prop :=
  ∀ s : State,
    (4 < s.bufIdx.toNat → exec .tProc s = .fault .slotIndex) ∧
    (65 < s.txIdx.toNat → exec .txByte s = .fault .packetIndex)

/-! ## Steps -/

/-- A step runs the decoded instruction, and then the clock edge is over: the next pins come up and the edge count goes
up by one. A stop of the instruction is the step's; no instruction refuses. The bytes of a selection (log 8), a step as
one clock edge (log 4) and the pins as a list in the state (log 3) are the model's choices. -/
def Obligations.StepRunsTheDecodedInstruction : Prop :=
  ∀ (s : State) (i : Instr), decode s.selection = .ok i →
    (∀ t, exec i s = .next t → step s = .next { t with inputs := t.inputs.tail, cycle := t.cycle + 1 }) ∧
    (∀ r, exec i s = .fault r → step s = .fault r) ∧
    (∀ r, exec i s ≠ .refused r)

/-- After 30_encoding.md R104, R105: `ctl` alone selects the operation; `FATAL` selects none. That a selection is bytes
that decode to the operation is the model's layout (log 8): in the SPC nothing is decoded. -/
def Obligations.CtlAloneSelectsTheOperation : Prop :=
  ∀ s : State, s.pins.rst = false →
    match s.ctl.operation with
    | some i => decode s.selection = .ok i
    | none => s.ctl = .fatal ∧ ∀ i, decode s.selection ≠ .ok i

/-- The model's way of placing an instruction (log 9): a table word that decodes, its bits laid out as the model chooses
(log 8), runs at the very next step. -/
def Obligations.PlacedWordRunsAtTheNextStep : Prop :=
  ∀ (s : State) (nbits w : Nat) (i : Instr), decodeTableWord nbits w = some i →
    step (s.withFetchWord nbits w) = afterEdge (exec i (s.withFetchWord nbits w))

/-- 70_reset_and_hazards.md R252: one edge with `rst` high is enough; while it stays high the registers stay as reset
leaves them and no event happens; at the first edge with `rst` low `INIT` is selected. -/
def Obligations.ResetHoldsUntilReleased : Prop :=
  ∀ (n : Nat) (s : State), (∀ k, k < n + 1 → (s.pinsAt k).rst = true) →
    ∃ t : State, steps (n + 1) s = .next t ∧ exec .reset t = .next t ∧ t.ctl = .uninit ∧ t.trace = s.trace ∧
      ((s.pinsAt (n + 1)).rst = false → decode t.selection = .ok .init)

/-- After 60_exceptions.md R222, R228: in `FATAL` without reset no operation executes and every register and the trace
stay; the request pins are low and `fatal_o` is high (R222). That such an edge is a step with a next state is the model's
reading (log 5); 45_orchestrator.md R206 calls the outcome "no step". -/
def Obligations.FatalStaysUntilReset : Prop :=
  ∀ s : State, s.ctl = .fatal → s.pins.rst = false →
    step s = .next { s with inputs := s.inputs.tail, cycle := s.cycle + 1 } ∧
    s.outPins build false =
      { initReq := false, accReq := false, tmpReq := false, txValid := false, txData := none, fatal := true }

/-- 60_exceptions.md R222: the fault is precise. Whatever operation raises it, on a failed read every register but
`ctl` and `fatal_cause` is as before, the failed read's event is the only new one, and the cause names the
operation (R220). -/
def Obligations.FatalIsPreciseAndNamesItsCause : Prop :=
  ∀ s t : State, step s = .next t → s.ctl ≠ .fatal → t.ctl = .fatal →
    ∃ ev,
      t = { s with
            ctl := .fatal
            fatalCause := t.fatalCause
            inputs := s.inputs.tail
            cycle := s.cycle + 1
            trace := s.trace ++ [ev] } ∧
      (s.ctl = .calTemp ∧ t.fatalCause = .calTempErr ∧ s.pins.tmpErr = true ∧ ev = .temp s.pins.tmpData true ∨
        s.ctl = .calRead ∧ t.fatalCause = .calAccErr ∧ s.pins.accErr = true ∧
          ev = .acc s.pins.accX s.pins.accY s.pins.accZ true ∨
        s.ctl = .tickAcc ∧ t.fatalCause = .tickAccErr ∧ s.pins.accErr = true ∧
          ev = .acc s.pins.accX s.pins.accY s.pins.accZ true ∨
        s.ctl = .tickTemp ∧ t.fatalCause = .tickTempErr ∧ s.pins.tmpErr = true ∧ ev = .temp s.pins.tmpData true)

/-- 20_memory.md R69: with both error pins tied to 0 the `FATAL` state is never entered. -/
def Obligations.NoErrorFlagsNoFatal : Prop :=
  ∀ s t : State, s.Safe → s.pins.accErr = false → s.pins.tmpErr = false → step s = .next t → t.Safe

/-- 20_memory.md R75, R62, R63, 10_state.md R39: an operation whose handshake is not answered holds, every register, the
trace and the output pins stay, and its own request pin is high. In every state each request pin is high exactly while
an operation that makes that request is selected and `rst` is low, `tx_data_o` is the byte at `tx_idx` exactly while one
is offered (that it shows nothing else is log 17), and `fatal_o` is high exactly in `FATAL`. -/
def Obligations.HoldKeepsStateAndRequests : Prop :=
  (∀ s : State, s.pins.rst = false → s.holding = true → s.txIdx.toNat ≤ 65 →
    step s = .next { s with inputs := s.inputs.tail, cycle := s.cycle + 1 } ∧
    (s.ctl = .uninit → (s.outPins build false).initReq = true) ∧
    (s.ctl = .calRead ∨ s.ctl = .tickAcc → (s.outPins build false).accReq = true) ∧
    (s.ctl = .calTemp ∨ s.ctl = .tickTemp → (s.outPins build false).tmpReq = true) ∧
    (s.ctl = .tx → (s.outPins build false).txValid = true) ∧
    (s.ctl = .uninit ∨ s.ctl = .calTemp ∨ s.ctl = .calRead ∨ s.ctl = .tickAcc ∨ s.ctl = .tickTemp ∨ s.ctl = .tx)) ∧
  ∀ (r : Registers build.windowN) (rst : Bool),
    ((r.outPins build rst).initReq = true ↔ rst = false ∧ r.ctl = .uninit) ∧
    ((r.outPins build rst).accReq = true ↔ rst = false ∧ (r.ctl = .calRead ∨ r.ctl = .tickAcc)) ∧
    ((r.outPins build rst).tmpReq = true ↔
      rst = false ∧ (r.ctl = .calTemp ∨ (r.ctl = .tickTemp ∧ r.tempCtr.toNat = 49))) ∧
    ((r.outPins build rst).txValid = true ↔ rst = false ∧ r.ctl = .tx) ∧
    (∀ h : r.txIdx.toNat < 66, (r.outPins build rst).txData =
      if rst = false ∧ r.ctl = .tx then some (r.pkt[r.txIdx.toNat]'h) else none) ∧
    ((r.outPins build rst).fatal = true ↔ r.ctl = .fatal)

/-- After 45_orchestrator.md R205: every step of `ctl`, with `cal_count` in its range (10_state.md R23), is an edge of the
table under its condition, or stays put in the two ways the model counts as steps: a hold (log 4), and `FATAL` without
reset (log 5). -/
def Obligations.EveryStepIsAnEdgeOfTheGraph : Prop :=
  ∀ s t : State, s.calCount.toNat ≤ 200 → step s = .next t → Edge s s.ctl t.ctl

/-- 45_orchestrator.md R205: where a step is taken, the table's conditions leave one edge. -/
def Obligations.EdgesOfTheGraphAreExclusive : Prop :=
  ∀ (s t : State) (c : Ctl), step s = .next t → Edge s s.ctl c → c = t.ctl

/-- 10_state.md R41: an operation writes no register the table does not give it. -/
def Obligations.WriteRightsOfTheAccessTable : Prop :=
  ∀ (i : Instr) (s t : State) (g : RegGroup), exec i s = .next t → g ∉ mayWrite i → g.same s.toRegisters t.toRegisters

/-- 20_memory.md R65, R67, R78: a step only adds events, at most one clock reading, exactly one acceleration read per
executed `CAL_SAMPLE` and `T_ACC`, a temperature read exactly in `CAL_TEMP` and on a 50th tick, a byte exactly per
executed `TX_BYTE`, `EnvInit` exactly in `INIT`. -/
def Obligations.EventsOfAStep : Prop :=
  ∀ s t : State, step s = .next t → ∃ evs : List Event,
    t.trace = s.trace ++ evs ∧
    evs.countP Event.isNow =
      (if s.pins.rst = false ∧ s.holding = false ∧ (s.ctl = .uninit ∨ s.ctl = .warmup ∨
        (s.ctl = .calRead ∧ s.pins.accErr = false) ∨ s.ctl = .calDelay ∨ s.ctl = .calDone ∨ s.ctl = .poll) then 1 else 0) ∧
    evs.countP Event.isAcc =
      (if s.pins.rst = false ∧ s.holding = false ∧ (s.ctl = .calRead ∨ s.ctl = .tickAcc) then 1 else 0) ∧
    evs.countP Event.isTemp =
      (if s.pins.rst = false ∧ s.holding = false ∧
        (s.ctl = .calTemp ∨ (s.ctl = .tickTemp ∧ s.tempCtr.toNat = 49)) then 1 else 0) ∧
    evs.countP Event.isTx = (if s.pins.rst = false ∧ s.holding = false ∧ s.ctl = .tx then 1 else 0) ∧
    evs.countP Event.isInit = (if s.pins.rst = false ∧ s.holding = false ∧ s.ctl = .uninit then 1 else 0)

/-! ## Encodings -/

/-- Decode and encode agree, for every well-formed instruction with every operand (30_encoding.md R91, R100, R104). -/
def Obligations.DecodeOfEncodeIsTheInstruction : Prop :=
  ∀ i : Instr, WellFormed i → decode (encode i) = .ok i

/-- 30_encoding.md R100: what decodes to a packet is well formed and is that packet's bytes, none dropped. -/
def Obligations.DecodedPacketIsItsBytes : Prop :=
  ∀ (b : List Byte) (p : PacketFields), decode b = .ok (.packet p) →
    WellFormed (.packet p) ∧ encode (.packet p) = b ∧ b = (encodePacket build p.z p.e p.n).toList

/-- Words written out from 10_state.md R21 and 30_encoding.md R104, R91: a sanity statement. -/
def Obligations.WrittenOutWordsDecode : Prop :=
  decode [0x00] = .ok .init ∧ decode [0x05] = .ok .calFinish ∧ decode [0x06] = .ok .poll ∧ decode [0x09] = .ok .tProc ∧
  decode [0x0B] = .ok .txByte ∧ decode [0x0C] = .error .fatalSelectsNothing ∧ decode [0x0D] = .error .unusedCode ∧
  decode ([0xFC, 0x1B] ++ List.replicate 64 0x00) =
    .ok (.packet (PacketFields.ofSamples (Vector.replicate 5 0) (Vector.replicate 5 0) (Vector.replicate 5 0)))

/-- 44_encoder.md R180, 30_encoding.md R92: bit `i` of an integer is bit `i mod 8` of byte `floor(i / 8)`. -/
def Obligations.IntegerBytesAreLittleEndian : Prop :=
  ∀ (v : I32) (i : Nat), i < 32 →
    (leBytes v).length = 4 ∧ ((leBytes v).getD (i / 8) 0).getLsbD (i % 8) = v.getLsbD i

/-- 30_encoding.md R91: the layout table, byte by byte, with each checksum over the packet's own bytes. -/
def Obligations.PacketLayoutByteByByte : Prop :=
  ∀ (z e n : Samples) (p : List Byte), p = (encodePacket build z e n).toList →
    p.length = 66 ∧ p.getD 0 0 = 0xFC ∧ p.getD 1 0 = 0x1B ∧
    (∀ (k j : Nat) (hk : k < 5), j < 4 →
      p.getD (2 + 4 * k + j) 0 = (z[k]'hk).extractLsb' (8 * j) 8 ∧
      p.getD (22 + 4 * k + j) 0 = (e[k]'hk).extractLsb' (8 * j) 8 ∧
      p.getD (42 + 4 * k + j) 0 = (n[k]'hk).extractLsb' (8 * j) 8) ∧
    p.getD 62 0 = ((p.drop 2).take 20).foldl (· ^^^ ·) 0 ∧
    p.getD 63 0 = ((p.drop 22).take 20).foldl (· ^^^ ·) 0 ∧
    p.getD 64 0 = ((p.drop 42).take 20).foldl (· ^^^ ·) 0 ∧
    p.getD 65 0 = 0x00

/-- 44_encoder.md R182, 90_conflicts.md C2: the checksum does not depend on the order of the samples, and is the fold of
the four bytes of their exclusive or. -/
def Obligations.ChecksumDoesNotDependOnOrder : Prop :=
  (∀ a b : Samples, a.toList.Perm b.toList → checksum a = checksum b) ∧
  (∀ a : Samples, checksum a = (leBytes (a.toList.foldl (· ^^^ ·) 0)).foldl (· ^^^ ·) 0)

/-- The run shorthand `PACKET` (30_encoding.md R107) with a transport that takes every byte: `ENCODE` and 66 `TX_BYTE`
put the packet's 66 bytes on the transport, in order, and nothing else, and control is back at `POLL`. -/
def Obligations.PacketShorthandSendsTheWholePacket : Prop :=
  ∀ s : State, s.pins.txReady = true →
    execAll (.encode :: List.replicate 66 .txByte) s = .next
      { s with
        pkt := encodePacket build s.buf.z s.buf.e s.buf.n
        bufIdx := 0
        txIdx := 65
        ctl := .poll
        written := { s.written with pkt := true }
        trace := s.trace ++ (encodePacket build s.buf.z s.buf.e s.buf.n).toList.map Event.tx }

/-! ## Calibration and drift tracking -/

/-- 41_calibrator.md R120: the unique quotient with a remainder smaller than the divisor that is zero or of the
dividend's sign. -/
def Obligations.TruncDivIsTheTruncatedQuotient : Prop :=
  ∀ a b q : Int, 0 < b →
    (truncDiv a b = q ↔ |a - q * b| < b ∧ (a - q * b = 0 ∨ (0 < a - q * b ∧ 0 < a) ∨ (a - q * b < 0 ∧ a < 0)))

/-- After 41_calibrator.md section 1 (R121, R122) and section 2: the calibration operations executed one after another, with
200 identical samples, yield exactly those offsets. The pins stand still, so every read returns the same sample and every
delay poll the same clock; `exec` does not look at `ctl` (log 13), so with `CAL_DELAY_US > 0` this is a sequence of
operations and not a run of the machine, which would wait in `CAL_DELAY`. -/
def Obligations.IdenticalSamplesCalibrateExactly : Prop :=
  ∀ s : State, s.pins.tmpValid = true → s.pins.tmpErr = false → s.pins.accValid = true → s.pins.accErr = false →
    ∃ t : State,
      execAll (.calTemp :: (List.replicate 200 [Instr.calSample, Instr.calWait]).flatten ++ [.calFinish]) s = .next t ∧
      t.off.x.toInt = s.pins.accX.toInt ∧ t.off.y.toInt = s.pins.accY.toInt ∧ t.off.z.toInt = s.pins.accZ.toInt ∧
      t.window = Vector.replicate build.windowN (s.pins.accZ.signExtend 32) ∧ t.calCount.toNat = 200

/-- 41_calibrator.md R123: strictly below 1000, each axis by itself. -/
def Obligations.StillnessIsStrictAndPerAxis : Prop :=
  ∀ v : Lanes I32, still build v = true ↔ |v.e.toInt| < 1000 ∧ |v.n.toInt| < 1000 ∧ |v.z.toInt| < 1000

/-- 41_calibrator.md R125: `WINDOW_N` updates with the same reading leave a window of that reading, whose mean it is,
for every capacity, old window and write position. An entry is the reading sign-extended (log 15, log 22). -/
def Obligations.ConstantReadingsConvergeTheWindow : Prop :=
  ∀ (n : Nat) (w : Vector I32 n) (p : Fin n) (k : I16),
    (fun q : Vector I32 n × Fin n => (windowPush q.1 q.2 k, wrPosNext q.2))^[n] (w, p) =
      (Vector.replicate n (k.signExtend 32), p) ∧
    (windowMean (Vector.replicate n (k.signExtend 32))).toInt = k.toInt

/-- 41_calibrator.md R130, R124: while sampling, no step but a reset changes `off_x` or `off_y`, and `off_z` changes only
in a `T_PROC` with `cfg_dyn = 1` whose corrected values are still. -/
def Obligations.HorizontalOffsetsAreImmutable : Prop :=
  ∀ s t : State, s.ctl.sampling = true → s.pins.rst = false → step s = .next t →
    t.off.x = s.off.x ∧ t.off.y = s.off.y ∧
    (t.off.z ≠ s.off.z → s.ctl = .tickProc ∧ s.cfgDyn = true ∧ still build s.corrected = true)

/-! ## Time -/

/-- 43_scheduler.md R161: the difference of the two times modulo `2^32`; if the true times are less than `2^32` apart,
their exact difference, across any wrap. -/
def Obligations.ElapsedIsExactAcrossAWrap : Prop :=
  (∀ start t : U32, (elapsed start t).toNat = usSince start t) ∧
  ∀ a b : Nat, a ≤ b →
    (elapsed (BitVec.ofNat 32 a) (BitVec.ofNat 32 b)).toNat = (b - a) % 2 ^ 32 ∧
    (b - a < 2 ^ 32 → (elapsed (BitVec.ofNat 32 a) (BitVec.ofNat 32 b)).toNat = b - a)

/-- 43_scheduler.md R166: over any run of the Sampling phase without reset, `last_tick` has advanced by 20000 for each
tick fired, whatever the poll times were. -/
def Obligations.LastTickAdvancesByTicksFired : Prop :=
  ∀ (n : Nat) (s t : State), s.ctl.sampling = true → (∀ k, k < n → (s.pinsAt k).rst = false) → steps n s = .next t →
    t.lastTick = s.lastTick + BitVec.ofNat 32 (20000 * fires n s)

/-- 43_scheduler.md R168: with a backlog below `2^32` a poll at true time `b` sees the backlog exactly and fires exactly
when fewer than `floor((b - a) / 20000)` ticks have fired since the seed at true time `a`. -/
def Obligations.PollSeesTheBacklog : Prop :=
  ∀ a b k : Nat, a + k * 20000 ≤ b → b - (a + k * 20000) < 2 ^ 32 →
    (elapsed (BitVec.ofNat 32 (a + k * 20000)) (BitVec.ofNat 32 b)).toNat = b - (a + k * 20000) ∧
    (due build (BitVec.ofNat 32 (a + k * 20000)) (BitVec.ofNat 32 b) = true ↔ k < (b - a) / 20000)

/-- After 43_scheduler.md R167, R169: at one clock value `n` polls fire as many ticks as whole intervals have passed, and
no more: catch-up ticks are fired one per poll, and a poll repeated at an exact step does not fire again. The polls are
executed one after another on pins that stand still, without the tick that a run puts between two firing polls: `exec`
does not look at `ctl` (log 13). -/
def Obligations.CatchUpFiresOneTickPerPoll : Prop :=
  ∀ (s : State) (n : Nat), ∃ t : State,
    execAll (List.replicate n .poll) s = .next t ∧
    t.lastTick = s.lastTick + BitVec.ofNat 32 (20000 * min n (usSince s.lastTick s.pins.now / 20000)) ∧
    t.trace = s.trace ++ List.replicate n (.now s.pins.now)

/-- 43_scheduler.md R170, R172: with an environment that answers at once, a tick started at `TICK_ACC` is back at `POLL`
after three operations, or after 70 with its packet when it fills the buffer. And 45_orchestrator.md R212: from every
state with the invariant that is not `FATAL`, the state after reset among them, under F1 (`HandshakesComplete`) and F2
(`TimePasses`, of a true time the clock shows) the SPC reaches `POLL` and fires a tick and ends a packet after every
edge, so infinitely many; R212 leaves unsaid that no reset and no error comes and that the clock does not jump by a whole
turn between two edges (`ClockIsWatched`, 70_reset_and_hazards.md R260). -/
def Obligations.TickReturnsToPoll : Prop :=
  (∀ s : State, s.Inv → s.ctl = .tickAcc → (∀ k, k < 70 → cooperative (s.pinsAt k) = true) →
    (s.bufIdx.toNat < 4 → ∃ t, steps 3 s = .next t ∧ t.ctl = .poll ∧ t.bufIdx.toNat = s.bufIdx.toNat + 1 ∧
      t.trace.countP Event.isTx = s.trace.countP Event.isTx) ∧
    (s.bufIdx.toNat = 4 → ∃ t, steps 70 s = .next t ∧ t.ctl = .poll ∧ t.bufIdx.toNat = 0 ∧
      t.trace.countP Event.isTx = s.trace.countP Event.isTx + 66)) ∧
  ∀ (env : Nat → Pins) (T : Nat → Nat) (r : Registers build.windowN), r.Inv → r.ctl ≠ .fatal → NeverResetsNorFails env →
    HandshakesComplete build env r → ShowsTrueTime env T → TimePasses T → ClockIsWatched T →
    ∀ n, (∃ k, n ≤ k ∧ MovesAt build env r k .poll .tickAcc) ∧ (∃ k, n ≤ k ∧ MovesAt build env r k .tx .poll)

/-! ## The high-pass filter -/

/-- 42_highpass.md R145: `i2f` is `round_f32` of every integer, that is finite, nearest, and of two equally near values
the one with an even fraction, `+0` for 0; and on the values the rule calls exact it keeps the number, which `f2i` gives
back. -/
def Obligations.SmallIntegersConvertExactly : Prop :=
  (∀ v : I32, |v.toInt| ≤ 2 ^ 24 →
    isFinite (i2f v) = true ∧ value (i2f v) = v.toInt * 2 ^ 149 ∧ f2i (i2f v) = v) ∧
  i2f 0 = 0 ∧
  ∀ (v : I32) (q : F32), isFinite q = true →
    isFinite (i2f v) = true ∧
    |value (i2f v) - v.toInt * 2 ^ 149| ≤ |value q - v.toInt * 2 ^ 149| ∧
    (|value (i2f v) - v.toInt * 2 ^ 149| = |value q - v.toInt * 2 ^ 149| → value q ≠ value (i2f v) →
      fracField (i2f v) % 2 = 0)

/-- 42_highpass.md R146: truncation toward zero, saturation, NaN to 0. -/
def Obligations.FloatToIntegerTruncatesAndSaturates : Prop :=
  ∀ f : F32,
    (isFinite f = true → -(2 ^ 31 * 2 ^ 149) ≤ value f → value f < 2 ^ 31 * 2 ^ 149 →
      (f2i f).toInt = (value f).tdiv (2 ^ 149)) ∧
    ((isFinite f = true ∧ 2 ^ 31 * 2 ^ 149 ≤ value f) ∨ (isInf f = true ∧ f.msb = false) → (f2i f).toInt = 2147483647) ∧
    ((isFinite f = true ∧ value f < -(2 ^ 31 * 2 ^ 149)) ∨ (isInf f = true ∧ f.msb = true) →
      (f2i f).toInt = -2147483648) ∧
    (isNan f = true → f2i f = 0)

/-- 42_highpass.md R142, R144: on finite operands `fadd` and `fmul` give the binary32 value nearest to the exact result,
the one with an even fraction of two equally near. Values are in units of `2^-149`, products in `2^-298`. -/
def Obligations.AddAndMultiplyRoundToNearestEven : Prop :=
  ∀ a b q : F32, isFinite a = true → isFinite b = true → isFinite q = true →
    (isFinite (fadd a b) = true →
      |value (fadd a b) - (value a + value b)| ≤ |value q - (value a + value b)| ∧
      (|value (fadd a b) - (value a + value b)| = |value q - (value a + value b)| → value q ≠ value (fadd a b) →
        fracField (fadd a b) % 2 = 0)) ∧
    (isFinite (fmul a b) = true →
      |value (fmul a b) * 2 ^ 149 - value a * value b| ≤ |value q * 2 ^ 149 - value a * value b| ∧
      (|value (fmul a b) * 2 ^ 149 - value a * value b| = |value q * 2 ^ 149 - value a * value b| →
        value q ≠ value (fmul a b) → fracField (fmul a b) % 2 = 0))

/-- 42_highpass.md R142 to R144 away from the finite nearest value: from `2^128 - 2^103` on the result on finite operands
is infinite, with the exact result's sign; an exactly zero sum is `-0` for two `-0` and else `+0`; NaN operands and
`inf + (-inf)`, `0 * inf` give a NaN; other infinities give infinity; a product's sign is the exclusive or of the
operands'; `fsub` is `fadd` with bit 31 inverted. -/
def Obligations.AddAndMultiplyOverflowToInfinity : Prop :=
  ∀ a b : F32,
    (isFinite a = true → isFinite b = true →
      (isInf (fadd a b) = true ↔ (2 ^ 277 - 2 ^ 252 : Int) ≤ |value a + value b|) ∧
      (isInf (fadd a b) = true → ((fadd a b).msb = true ↔ value a + value b < 0)) ∧
      (value a + value b = 0 → fadd a b = if a = 0x80000000 ∧ b = 0x80000000 then 0x80000000 else 0) ∧
      (isInf (fmul a b) = true ↔ (2 ^ 277 - 2 ^ 252 : Int) * 2 ^ 149 ≤ |value a * value b|) ∧
      (fmul a b).msb = (a.msb ^^ b.msb) ∧
      (value a * value b = 0 → fmul a b = if a.msb ^^ b.msb then 0x80000000 else 0)) ∧
    (isNan a = true ∨ isNan b = true → isNan (fadd a b) = true ∧ isNan (fmul a b) = true) ∧
    (isInf a = true → isInf b = true → a ≠ b → isNan (fadd a b) = true) ∧
    (isInf a = true → isInf b = true → a = b → fadd a b = a) ∧
    (isInf a = true → isFinite b = true → fadd a b = a ∧ fadd b a = a) ∧
    (isInf a = true → isFinite b = true → value b = 0 → isNan (fmul a b) = true ∧ isNan (fmul b a) = true) ∧
    (isInf a = true → isFinite b = true → value b ≠ 0 →
      isInf (fmul a b) = true ∧ (fmul a b).msb = (a.msb ^^ b.msb) ∧
      isInf (fmul b a) = true ∧ (fmul b a).msb = (a.msb ^^ b.msb)) ∧
    (isInf a = true → isInf b = true → isInf (fmul a b) = true ∧ (fmul a b).msb = (a.msb ^^ b.msb)) ∧
    fsub a b = fadd a (b ^^^ 0x80000000)

/-- 42_highpass.md R153: with the last input equal to the new one and a `+0` accumulator the accumulator stays `+0`. -/
def Obligations.ZeroInputKeepsTheFilterAtZero : Prop :=
  ∀ v : I32, hpfStep binary32 0 v v = (0, v)

/-- 42_highpass.md R152, 45_orchestrator.md R204: each lane's filter registers and buffer after `T_PROC` depend on that
lane's registers alone, whatever the other lanes hold. -/
def Obligations.LanesAreIndependent : Prop :=
  ∀ s s' t t' : State, exec .tProc s = .next t → exec .tProc s' = .next t' →
    s.bufIdx = s'.bufIdx → s.cfgHpf = s'.cfgHpf →
    (s.raw.x = s'.raw.x → s.off.x = s'.off.x → s.filt.e = s'.filt.e → s.last.e = s'.last.e → s.buf.e = s'.buf.e →
      t.filt.e = t'.filt.e ∧ t.last.e = t'.last.e ∧ t.buf.e = t'.buf.e) ∧
    (s.raw.y = s'.raw.y → s.off.y = s'.off.y → s.filt.n = s'.filt.n → s.last.n = s'.last.n → s.buf.n = s'.buf.n →
      t.filt.n = t'.filt.n ∧ t.last.n = t'.last.n ∧ t.buf.n = t'.buf.n) ∧
    (s.raw.z = s'.raw.z → s.off.z = s'.off.z → s.filt.z = s'.filt.z → s.last.z = s'.last.z → s.buf.z = s'.buf.z →
      t.filt.z = t'.filt.z ∧ t.last.z = t'.last.z ∧ t.buf.z = t'.buf.z)

/-- After 44_encoder.md R189: five ticks on samples equal to the offsets, protocol v1, give the packet `FC 1B` and 64 zero
bytes, for whatever the sample is, with or without a 50th tick among the five. The operations of the ticks are executed
one after another on pins that stand still, without the polls between them: `exec` does not look at `ctl` (log 13). -/
def Obligations.SamplesAtTheOffsetsGiveTheZeroPacket : Prop :=
  ∀ s : State, s.pins.accValid = true → s.pins.accErr = false → s.cfgHpf = false → s.cfgDyn = false →
    s.bufIdx.toNat = 0 → s.tempCtr.toNat ≤ 49 →
    (45 ≤ s.tempCtr.toNat → s.pins.tmpValid = true ∧ s.pins.tmpErr = false) →
    s.off = { x := s.pins.accX.signExtend 32, y := s.pins.accY.signExtend 32, z := s.pins.accZ.signExtend 32 } →
    ∃ t : State,
      execAll ((List.replicate 5 [Instr.tAcc, Instr.tTemp, Instr.tProc]).flatten ++ [.encode]) s = .next t ∧
      t.pkt.toList = [0xFC, 0x1B] ++ List.replicate 64 0x00

/-! ## Invariants and noninterference -/

/-- 00_scope.md R8 to R11, 30_encoding.md R102, 42_highpass.md R148: the built configuration has the constants of R8, the
array sizes agree with them, `INTERVAL` is 20000, the open parameters meet their constraints whatever they are,
configuration time accepts exactly the parameters that do, the width of `wr_pos` is that of 10_state.md R35 in every
configuration, and `ALPHA_BITS` is `0x3F7EB852`, the binary32 value nearest to `ALPHA`. -/
def Obligations.BuiltParametersAreLegal : Prop :=
  (build.sampleRateHz = 50 ∧ build.interval = 20000 ∧ build.calibrationSamples = 200 ∧ build.stillThreshold = 1000 ∧
    build.alpha = 995 / 1000 ∧ build.samplesPerPacket = 5 ∧ build.axes = 3 ∧ build.packetLen = 66 ∧
    build.header0 = 0xFC ∧ build.header1 = 0x1B ∧ build.reservedByte = 0x00 ∧ build.tempPeriod = 50) ∧
  build.SizesAgree ∧ build.Legal ∧ build.windowN = Config.openWindowN.val + 1 ∧
  (∀ (h : HpfNumerics) (n w d : Nat), Config.LegalParameters n w d ↔
    ∃ c, Config.ofParameters h n w d = .ok c ∧ c.numerics = h ∧ c.windowN = n ∧ c.warmupUs = w ∧ c.calDelayUs = d) ∧
  (∀ (c : Config) (r : Registers c.windowN),
    Config.wrPosWidth c.windowN = max 1 (Nat.clog 2 c.windowN) ∧ r.wrPosBits.toNat = r.wrPos.val) ∧
  build.numerics.alphaBits = 0x3F7EB852 ∧ isFinite build.numerics.alphaBits = true ∧
  ∀ q : F32, isFinite q = true →
    |(value build.numerics.alphaBits : Rat) - build.alpha * 2 ^ 149| ≤ |(value q : Rat) - build.alpha * 2 ^ 149|

/-- The invariants hold right after reset. None rests on a reset value that is the model's choice (log 1). -/
def Obligations.ResetStateMeetsTheInvariants : Prop :=
  State.reset.Inv ∧ State.reset.WrittenInv ∧ State.reset.FilterIdle ∧ State.reset.FilterBounded ∧
    State.reset.PacketOnWire

/-- 45_orchestrator.md R210, 10_state.md R36: the ranges, those of the filled buffer slots with `cfg_hpf = 0` and of the
window's entries (R35) among them, and the window invariant are kept by every step from every state that has them. -/
def Obligations.StepKeepsTheInvariant : Prop :=
  ∀ s t : State, s.Inv → step s = .next t → t.Inv

/-- 10_state.md R36, 20_memory.md R61: under the invariant no index is out of range, so no step stops. -/
def Obligations.StepNeverStopsUnderTheInvariant : Prop :=
  ∀ s : State, s.Inv → ∃ t, step s = .next t

/-- 10_state.md R43: every step keeps "written before its first reader is selected". -/
def Obligations.StepKeepsRegistersWrittenBeforeRead : Prop :=
  ∀ s t : State, s.WrittenInv → step s = .next t → t.WrittenInv

/-- 10_state.md R43, 70_reset_and_hazards.md R271: the values the model gives to registers of unspecified reset value
never matter: two states that agree on all written registers stay so, with the same trace, and stop alike. -/
def Obligations.UnwrittenValuesNeverMatter : Prop :=
  ∀ s s' : State, s.WrittenInv → AgreeWritten s s' →
    match step s, step s' with
    | .next t, .next t' => AgreeWritten t t'
    | .fault r, .fault r' => r = r'
    | _, _ => False

/-- 42_highpass.md R149, 45_orchestrator.md R210 (8): the filter registers stay finite and below `2.7 * 10^7`, and with
`cfg_hpf = 1` so do the values in the filled buffer slots. -/
def Obligations.FilterStaysBounded : Prop :=
  ∀ s t : State, s.Inv → s.FilterBounded → step s = .next t → t.FilterBounded

/-- 70_reset_and_hazards.md R254: nothing touches the filter registers before sampling or with `cfg_hpf = 0`. -/
def Obligations.FilterStaysAtResetWhileIdle : Prop :=
  ∀ s t : State, s.FilterIdle → step s = .next t → t.FilterIdle

/-- 20_memory.md R72, 70_reset_and_hazards.md R266: while a packet is being sent, exactly its first `tx_idx` bytes are
the latest events of the trace, with nothing between them, and with the last byte all 66 are. -/
def Obligations.PacketBytesAreConsecutiveOnTheWire : Prop :=
  ∀ s t : State, s.PacketOnWire → step s = .next t →
    t.PacketOnWire ∧
    (s.ctl = .tx → t.ctl = .poll → ∃ before : List Event, t.trace = before ++ s.pkt.toList.map Event.tx)
end

