-- ==== Sys2Proof/Laws/Operands.lean ====
section
/-! SUPPORT. What the operand forms, the window update and the packet pieces give, as integers and as lists. -/

namespace Sys2Proof.Machine

/-! ## Operands (30_encoding.md R96, R97) -/

@[simp] theorem sext16_toInt (v : I16) : (sext16 v).toInt = v.toInt := by
  rw [sext16, BitVec.toInt_signExtend_of_le (by decide)]

theorem correct_toInt (raw : I16) (off : I32) (h : -32768 ≤ off.toInt ∧ off.toInt ≤ 32767) :
    (correct raw off).toInt = raw.toInt - off.toInt := by
  have hr := BitVec.toInt_lt (x := raw)
  have hl := BitVec.le_toInt raw
  simp only [correct, BitVec.toInt_sub, sext16_toInt]
  rw [Int.bmod_eq_of_le] <;> omega

@[simp] theorem corrected_e {n : Nat} (r : Registers n) : r.corrected.e = correct r.raw.x r.off.x := rfl
@[simp] theorem corrected_n {n : Nat} (r : Registers n) : r.corrected.n = correct r.raw.y r.off.y := rfl
@[simp] theorem corrected_z {n : Nat} (r : Registers n) : r.corrected.z = correct r.raw.z r.off.z := rfl

/-! ## The window (41_calibrator.md R125) -/

theorem windowPush_getElem {n : Nat} (w : Vector I32 n) (p : Fin n) (rz : I16) (i : Nat) (h : i < n) :
    (windowPush w p rz)[i] = if p.val = i then sext16 rz else w[i] := by
  simp [windowPush, Vector.getElem_set]

@[simp] theorem wrPosNext_val {n : Nat} (p : Fin n) : (wrPosNext p).val = (p.val + 1) % n := rfl

/-- `wr_pos` loses nothing in its bits (10_state.md R35). -/
theorem wrPosBits_toNat {n : Nat} (r : Registers n) : r.wrPosBits.toNat = r.wrPos.val := by
  have h : r.wrPos.val < 2 ^ Config.wrPosWidth n :=
    Nat.lt_of_lt_of_le r.wrPos.isLt (Nat.le_of_pred_lt (Nat.lt_log2_self (n := n - 1)))
  simp [Registers.wrPosBits, Nat.mod_eq_of_lt h]

/-! ## Packet pieces (44_encoder.md R180, R183) -/

@[simp] theorem leBytes_length (v : I32) : (leBytes v).length = 4 := rfl

theorem encodePacket_toList (c : Config) (z e n : Samples) :
    (encodePacket c z e n).toList = packetBytes c z e n (checksum z) (checksum e) (checksum n) := by
  simp [encodePacket]

theorem readI32_leBytes (v : I32) (l : List Byte) : readI32 (leBytes v ++ l) 0 = v := by
  apply BitVec.eq_of_toNat_eq
  simp [readI32, leBytes, Nat.shiftRight_eq_div_pow]
  omega

end Sys2Proof.Machine
end

