-- ==== Sys2Proof/Laws/State.lean ====
section
/-! SUPPORT. One lemma per field per update of the registers and of the state, true by rfl, so that no proof unfolds a
record update. An update of `State` that leaves the registers alone says so once, for all of them. -/

namespace Sys2Proof.Machine

/-! ## The end of a clock edge -/

@[simp] theorem State.nextEdge_toRegisters (s : State) : s.nextEdge.toRegisters = s.toRegisters := rfl
@[simp] theorem State.nextEdge_inputs (s : State) : s.nextEdge.inputs = s.inputs.tail := rfl
@[simp] theorem State.nextEdge_cycle (s : State) : s.nextEdge.cycle = s.cycle + 1 := rfl
@[simp] theorem State.nextEdge_trace (s : State) : s.nextEdge.trace = s.trace := rfl

/-! ## Placing pins -/

@[simp] theorem State.pushPins_toRegisters (s : State) (p : Pins) : (s.pushPins p).toRegisters = s.toRegisters := rfl
@[simp] theorem State.pushPins_inputs (s : State) (p : Pins) : (s.pushPins p).inputs = p :: s.inputs := rfl
@[simp] theorem State.pushPins_cycle (s : State) (p : Pins) : (s.pushPins p).cycle = s.cycle := rfl
@[simp] theorem State.pushPins_trace (s : State) (p : Pins) : (s.pushPins p).trace = s.trace := rfl

/-! ## An effect takes place -/

@[simp] theorem State.apply_toRegisters (s : State) (e : Effect build.windowN) : (s.apply e).toRegisters = e.regs := rfl
@[simp] theorem State.apply_inputs (s : State) (e : Effect build.windowN) : (s.apply e).inputs = s.inputs := rfl
@[simp] theorem State.apply_cycle (s : State) (e : Effect build.windowN) : (s.apply e).cycle = s.cycle := rfl
@[simp] theorem State.apply_trace (s : State) (e : Effect build.windowN) : (s.apply e).trace = s.trace ++ e.events := rfl

@[simp] theorem State.run_next (s : State) (e : Effect build.windowN) : s.run (.next e) = .next (s.apply e) := rfl
@[simp] theorem State.run_fault (s : State) (r : Fault) : s.run (.fault r) = .fault r := rfl
@[simp] theorem State.run_refused (s : State) (r : Refusal) : s.run (.refused r) = .refused r := rfl

/-! ## Waiting -/

@[simp] theorem Registers.hold_regs {n : Nat} (r : Registers n) : r.hold.regs = r := rfl
@[simp] theorem Registers.hold_events {n : Nat} (r : Registers n) : r.hold.events = [] := rfl

/-! ## Taking the fault -/

@[simp] theorem Registers.raiseFatal_events {n : Nat} (r : Registers n) (c : FatalCause) (evs : List Event) :
    (r.raiseFatal c evs).events = evs := rfl
@[simp] theorem Registers.raiseFatal_ctl {n : Nat} (r : Registers n) (c : FatalCause) (evs : List Event) :
    (r.raiseFatal c evs).regs.ctl = .fatal := rfl
@[simp] theorem Registers.raiseFatal_calCount {n : Nat} (r : Registers n) (c : FatalCause) (evs : List Event) :
    (r.raiseFatal c evs).regs.calCount = r.calCount := rfl
@[simp] theorem Registers.raiseFatal_bufIdx {n : Nat} (r : Registers n) (c : FatalCause) (evs : List Event) :
    (r.raiseFatal c evs).regs.bufIdx = r.bufIdx := rfl
@[simp] theorem Registers.raiseFatal_txIdx {n : Nat} (r : Registers n) (c : FatalCause) (evs : List Event) :
    (r.raiseFatal c evs).regs.txIdx = r.txIdx := rfl
@[simp] theorem Registers.raiseFatal_tempCtr {n : Nat} (r : Registers n) (c : FatalCause) (evs : List Event) :
    (r.raiseFatal c evs).regs.tempCtr = r.tempCtr := rfl
@[simp] theorem Registers.raiseFatal_fatalCause {n : Nat} (r : Registers n) (c : FatalCause) (evs : List Event) :
    (r.raiseFatal c evs).regs.fatalCause = c := rfl
@[simp] theorem Registers.raiseFatal_lastTick {n : Nat} (r : Registers n) (c : FatalCause) (evs : List Event) :
    (r.raiseFatal c evs).regs.lastTick = r.lastTick := rfl
@[simp] theorem Registers.raiseFatal_delayStart {n : Nat} (r : Registers n) (c : FatalCause) (evs : List Event) :
    (r.raiseFatal c evs).regs.delayStart = r.delayStart := rfl
@[simp] theorem Registers.raiseFatal_cfgHpf {n : Nat} (r : Registers n) (c : FatalCause) (evs : List Event) :
    (r.raiseFatal c evs).regs.cfgHpf = r.cfgHpf := rfl
@[simp] theorem Registers.raiseFatal_cfgDyn {n : Nat} (r : Registers n) (c : FatalCause) (evs : List Event) :
    (r.raiseFatal c evs).regs.cfgDyn = r.cfgDyn := rfl
@[simp] theorem Registers.raiseFatal_raw {n : Nat} (r : Registers n) (c : FatalCause) (evs : List Event) :
    (r.raiseFatal c evs).regs.raw = r.raw := rfl
@[simp] theorem Registers.raiseFatal_sum {n : Nat} (r : Registers n) (c : FatalCause) (evs : List Event) :
    (r.raiseFatal c evs).regs.sum = r.sum := rfl
@[simp] theorem Registers.raiseFatal_off {n : Nat} (r : Registers n) (c : FatalCause) (evs : List Event) :
    (r.raiseFatal c evs).regs.off = r.off := rfl
@[simp] theorem Registers.raiseFatal_calibTemp {n : Nat} (r : Registers n) (c : FatalCause) (evs : List Event) :
    (r.raiseFatal c evs).regs.calibTemp = r.calibTemp := rfl
@[simp] theorem Registers.raiseFatal_currentTemp {n : Nat} (r : Registers n) (c : FatalCause) (evs : List Event) :
    (r.raiseFatal c evs).regs.currentTemp = r.currentTemp := rfl
@[simp] theorem Registers.raiseFatal_filt {n : Nat} (r : Registers n) (c : FatalCause) (evs : List Event) :
    (r.raiseFatal c evs).regs.filt = r.filt := rfl
@[simp] theorem Registers.raiseFatal_last {n : Nat} (r : Registers n) (c : FatalCause) (evs : List Event) :
    (r.raiseFatal c evs).regs.last = r.last := rfl
@[simp] theorem Registers.raiseFatal_window {n : Nat} (r : Registers n) (c : FatalCause) (evs : List Event) :
    (r.raiseFatal c evs).regs.window = r.window := rfl
@[simp] theorem Registers.raiseFatal_wrPos {n : Nat} (r : Registers n) (c : FatalCause) (evs : List Event) :
    (r.raiseFatal c evs).regs.wrPos = r.wrPos := rfl
@[simp] theorem Registers.raiseFatal_buf {n : Nat} (r : Registers n) (c : FatalCause) (evs : List Event) :
    (r.raiseFatal c evs).regs.buf = r.buf := rfl
@[simp] theorem Registers.raiseFatal_pkt {n : Nat} (r : Registers n) (c : FatalCause) (evs : List Event) :
    (r.raiseFatal c evs).regs.pkt = r.pkt := rfl
@[simp] theorem Registers.raiseFatal_written {n : Nat} (r : Registers n) (c : FatalCause) (evs : List Event) :
    (r.raiseFatal c evs).regs.written = r.written := rfl

/-! ## Building a packet -/

@[simp] theorem Registers.buildPacket_ctl (c : Config) (r : Registers c.windowN) (z e n : Samples) :
    (r.buildPacket c z e n).ctl = .tx := rfl
@[simp] theorem Registers.buildPacket_calCount (c : Config) (r : Registers c.windowN) (z e n : Samples) :
    (r.buildPacket c z e n).calCount = r.calCount := rfl
@[simp] theorem Registers.buildPacket_bufIdx (c : Config) (r : Registers c.windowN) (z e n : Samples) :
    (r.buildPacket c z e n).bufIdx = 0 := rfl
@[simp] theorem Registers.buildPacket_txIdx (c : Config) (r : Registers c.windowN) (z e n : Samples) :
    (r.buildPacket c z e n).txIdx = 0 := rfl
@[simp] theorem Registers.buildPacket_tempCtr (c : Config) (r : Registers c.windowN) (z e n : Samples) :
    (r.buildPacket c z e n).tempCtr = r.tempCtr := rfl
@[simp] theorem Registers.buildPacket_fatalCause (c : Config) (r : Registers c.windowN) (z e n : Samples) :
    (r.buildPacket c z e n).fatalCause = r.fatalCause := rfl
@[simp] theorem Registers.buildPacket_lastTick (c : Config) (r : Registers c.windowN) (z e n : Samples) :
    (r.buildPacket c z e n).lastTick = r.lastTick := rfl
@[simp] theorem Registers.buildPacket_delayStart (c : Config) (r : Registers c.windowN) (z e n : Samples) :
    (r.buildPacket c z e n).delayStart = r.delayStart := rfl
@[simp] theorem Registers.buildPacket_cfgHpf (c : Config) (r : Registers c.windowN) (z e n : Samples) :
    (r.buildPacket c z e n).cfgHpf = r.cfgHpf := rfl
@[simp] theorem Registers.buildPacket_cfgDyn (c : Config) (r : Registers c.windowN) (z e n : Samples) :
    (r.buildPacket c z e n).cfgDyn = r.cfgDyn := rfl
@[simp] theorem Registers.buildPacket_raw (c : Config) (r : Registers c.windowN) (z e n : Samples) :
    (r.buildPacket c z e n).raw = r.raw := rfl
@[simp] theorem Registers.buildPacket_sum (c : Config) (r : Registers c.windowN) (z e n : Samples) :
    (r.buildPacket c z e n).sum = r.sum := rfl
@[simp] theorem Registers.buildPacket_off (c : Config) (r : Registers c.windowN) (z e n : Samples) :
    (r.buildPacket c z e n).off = r.off := rfl
@[simp] theorem Registers.buildPacket_calibTemp (c : Config) (r : Registers c.windowN) (z e n : Samples) :
    (r.buildPacket c z e n).calibTemp = r.calibTemp := rfl
@[simp] theorem Registers.buildPacket_currentTemp (c : Config) (r : Registers c.windowN) (z e n : Samples) :
    (r.buildPacket c z e n).currentTemp = r.currentTemp := rfl
@[simp] theorem Registers.buildPacket_filt (c : Config) (r : Registers c.windowN) (z e n : Samples) :
    (r.buildPacket c z e n).filt = r.filt := rfl
@[simp] theorem Registers.buildPacket_last (c : Config) (r : Registers c.windowN) (z e n : Samples) :
    (r.buildPacket c z e n).last = r.last := rfl
@[simp] theorem Registers.buildPacket_window (c : Config) (r : Registers c.windowN) (z e n : Samples) :
    (r.buildPacket c z e n).window = r.window := rfl
@[simp] theorem Registers.buildPacket_wrPos (c : Config) (r : Registers c.windowN) (z e n : Samples) :
    (r.buildPacket c z e n).wrPos = r.wrPos := rfl
@[simp] theorem Registers.buildPacket_buf (c : Config) (r : Registers c.windowN) (z e n : Samples) :
    (r.buildPacket c z e n).buf = r.buf := rfl
@[simp] theorem Registers.buildPacket_pkt (c : Config) (r : Registers c.windowN) (z e n : Samples) :
    (r.buildPacket c z e n).pkt = encodePacket c z e n := rfl
@[simp] theorem Registers.buildPacket_written (c : Config) (r : Registers c.windowN) (z e n : Samples) :
    (r.buildPacket c z e n).written = { r.written with pkt := true } := rfl

/-! ## Appending to the buffers -/

@[simp] theorem Registers.append_ctl (c : Config) (r : Registers c.windowN) (out : Lanes I32) (k : Nat)
    (h : k < Config.bufferSlots) :
    (r.append c out k h).ctl = (if r.bufIdx.toNat + 1 = c.samplesPerPacket then .encode else .poll) := rfl
@[simp] theorem Registers.append_calCount (c : Config) (r : Registers c.windowN) (out : Lanes I32) (k : Nat)
    (h : k < Config.bufferSlots) :
    (r.append c out k h).calCount = r.calCount := rfl
@[simp] theorem Registers.append_bufIdx (c : Config) (r : Registers c.windowN) (out : Lanes I32) (k : Nat)
    (h : k < Config.bufferSlots) :
    (r.append c out k h).bufIdx = r.bufIdx + 1 := rfl
@[simp] theorem Registers.append_txIdx (c : Config) (r : Registers c.windowN) (out : Lanes I32) (k : Nat)
    (h : k < Config.bufferSlots) :
    (r.append c out k h).txIdx = r.txIdx := rfl
@[simp] theorem Registers.append_tempCtr (c : Config) (r : Registers c.windowN) (out : Lanes I32) (k : Nat)
    (h : k < Config.bufferSlots) :
    (r.append c out k h).tempCtr = r.tempCtr := rfl
@[simp] theorem Registers.append_fatalCause (c : Config) (r : Registers c.windowN) (out : Lanes I32) (k : Nat)
    (h : k < Config.bufferSlots) :
    (r.append c out k h).fatalCause = r.fatalCause := rfl
@[simp] theorem Registers.append_lastTick (c : Config) (r : Registers c.windowN) (out : Lanes I32) (k : Nat)
    (h : k < Config.bufferSlots) :
    (r.append c out k h).lastTick = r.lastTick := rfl
@[simp] theorem Registers.append_delayStart (c : Config) (r : Registers c.windowN) (out : Lanes I32) (k : Nat)
    (h : k < Config.bufferSlots) :
    (r.append c out k h).delayStart = r.delayStart := rfl
@[simp] theorem Registers.append_cfgHpf (c : Config) (r : Registers c.windowN) (out : Lanes I32) (k : Nat)
    (h : k < Config.bufferSlots) :
    (r.append c out k h).cfgHpf = r.cfgHpf := rfl
@[simp] theorem Registers.append_cfgDyn (c : Config) (r : Registers c.windowN) (out : Lanes I32) (k : Nat)
    (h : k < Config.bufferSlots) :
    (r.append c out k h).cfgDyn = r.cfgDyn := rfl
@[simp] theorem Registers.append_raw (c : Config) (r : Registers c.windowN) (out : Lanes I32) (k : Nat)
    (h : k < Config.bufferSlots) :
    (r.append c out k h).raw = r.raw := rfl
@[simp] theorem Registers.append_sum (c : Config) (r : Registers c.windowN) (out : Lanes I32) (k : Nat)
    (h : k < Config.bufferSlots) :
    (r.append c out k h).sum = r.sum := rfl
@[simp] theorem Registers.append_off (c : Config) (r : Registers c.windowN) (out : Lanes I32) (k : Nat)
    (h : k < Config.bufferSlots) :
    (r.append c out k h).off = r.off := rfl
@[simp] theorem Registers.append_calibTemp (c : Config) (r : Registers c.windowN) (out : Lanes I32) (k : Nat)
    (h : k < Config.bufferSlots) :
    (r.append c out k h).calibTemp = r.calibTemp := rfl
@[simp] theorem Registers.append_currentTemp (c : Config) (r : Registers c.windowN) (out : Lanes I32) (k : Nat)
    (h : k < Config.bufferSlots) :
    (r.append c out k h).currentTemp = r.currentTemp := rfl
@[simp] theorem Registers.append_filt (c : Config) (r : Registers c.windowN) (out : Lanes I32) (k : Nat)
    (h : k < Config.bufferSlots) :
    (r.append c out k h).filt = r.filt := rfl
@[simp] theorem Registers.append_last (c : Config) (r : Registers c.windowN) (out : Lanes I32) (k : Nat)
    (h : k < Config.bufferSlots) :
    (r.append c out k h).last = r.last := rfl
@[simp] theorem Registers.append_window (c : Config) (r : Registers c.windowN) (out : Lanes I32) (k : Nat)
    (h : k < Config.bufferSlots) :
    (r.append c out k h).window = r.window := rfl
@[simp] theorem Registers.append_wrPos (c : Config) (r : Registers c.windowN) (out : Lanes I32) (k : Nat)
    (h : k < Config.bufferSlots) :
    (r.append c out k h).wrPos = r.wrPos := rfl
@[simp] theorem Registers.append_buf (c : Config) (r : Registers c.windowN) (out : Lanes I32) (k : Nat)
    (h : k < Config.bufferSlots) :
    (r.append c out k h).buf = Lanes.zip (fun b v => b.set k v h) r.buf out := rfl
@[simp] theorem Registers.append_pkt (c : Config) (r : Registers c.windowN) (out : Lanes I32) (k : Nat)
    (h : k < Config.bufferSlots) :
    (r.append c out k h).pkt = r.pkt := rfl
@[simp] theorem Registers.append_written (c : Config) (r : Registers c.windowN) (out : Lanes I32) (k : Nat)
    (h : k < Config.bufferSlots) :
    (r.append c out k h).written = { r.written with slots := r.written.slots.set k true h } := rfl

/-! ## The registers and the state after reset -/

@[simp] theorem Registers.reset_ctl (c : Config) : (Registers.reset c).ctl = .uninit := rfl
@[simp] theorem Registers.reset_calCount (c : Config) : (Registers.reset c).calCount = 0 := rfl
@[simp] theorem Registers.reset_bufIdx (c : Config) : (Registers.reset c).bufIdx = 0 := rfl
@[simp] theorem Registers.reset_txIdx (c : Config) : (Registers.reset c).txIdx = 0 := rfl
@[simp] theorem Registers.reset_tempCtr (c : Config) : (Registers.reset c).tempCtr = 0 := rfl
@[simp] theorem Registers.reset_fatalCause (c : Config) : (Registers.reset c).fatalCause = .none := rfl
@[simp] theorem Registers.reset_lastTick (c : Config) : (Registers.reset c).lastTick = 0 := rfl
@[simp] theorem Registers.reset_delayStart (c : Config) : (Registers.reset c).delayStart = 0 := rfl
@[simp] theorem Registers.reset_cfgHpf (c : Config) : (Registers.reset c).cfgHpf = false := rfl
@[simp] theorem Registers.reset_cfgDyn (c : Config) : (Registers.reset c).cfgDyn = false := rfl
@[simp] theorem Registers.reset_raw (c : Config) : (Registers.reset c).raw = { x := 0, y := 0, z := 0 } := rfl
@[simp] theorem Registers.reset_sum (c : Config) : (Registers.reset c).sum = { x := 0, y := 0, z := 0 } := rfl
@[simp] theorem Registers.reset_off (c : Config) : (Registers.reset c).off = { x := 0, y := 0, z := 0 } := rfl
@[simp] theorem Registers.reset_calibTemp (c : Config) : (Registers.reset c).calibTemp = 0 := rfl
@[simp] theorem Registers.reset_currentTemp (c : Config) : (Registers.reset c).currentTemp = 0 := rfl
@[simp] theorem Registers.reset_filt (c : Config) : (Registers.reset c).filt = { e := 0, n := 0, z := 0 } := rfl
@[simp] theorem Registers.reset_last (c : Config) : (Registers.reset c).last = { e := 0, n := 0, z := 0 } := rfl
@[simp] theorem Registers.reset_window (c : Config) : (Registers.reset c).window = Vector.replicate c.windowN 0 := rfl
@[simp] theorem Registers.reset_wrPos (c : Config) : (Registers.reset c).wrPos = ⟨0, c.windowN_pos⟩ := rfl
@[simp] theorem Registers.reset_buf (c : Config) :
    (Registers.reset c).buf = { e := Vector.replicate 5 0, n := Vector.replicate 5 0, z := Vector.replicate 5 0 } := rfl
@[simp] theorem Registers.reset_pkt (c : Config) : (Registers.reset c).pkt = Vector.replicate 66 0 := rfl
@[simp] theorem Registers.reset_written (c : Config) : (Registers.reset c).written = Written.nothing := rfl

@[simp] theorem State.reset_toRegisters : State.reset.toRegisters = Registers.reset build := rfl
@[simp] theorem State.reset_inputs : State.reset.inputs = [] := rfl
@[simp] theorem State.reset_cycle : State.reset.cycle = 0 := rfl
@[simp] theorem State.reset_trace : State.reset.trace = [] := rfl

@[simp] theorem resetEffect_regs (c : Config) : (resetEffect c).regs = Registers.reset c := rfl
@[simp] theorem resetEffect_events (c : Config) : (resetEffect c).events = [] := rfl

/-! ## The built configuration -/

@[simp] theorem build_sampleRateHz : build.sampleRateHz = 50 := rfl
@[simp] theorem build_interval : build.interval = 20000 := rfl
@[simp] theorem build_calibrationSamples : build.calibrationSamples = 200 := rfl
@[simp] theorem build_stillThreshold : build.stillThreshold = 1000 := rfl
@[simp] theorem build_samplesPerPacket : build.samplesPerPacket = 5 := rfl
@[simp] theorem build_axes : build.axes = 3 := rfl
@[simp] theorem build_packetLen : build.packetLen = 66 := rfl
@[simp] theorem build_header0 : build.header0 = 0xFC := rfl
@[simp] theorem build_header1 : build.header1 = 0x1B := rfl
@[simp] theorem build_reservedByte : build.reservedByte = 0x00 := rfl
@[simp] theorem build_tempPeriod : build.tempPeriod = 50 := rfl
@[simp] theorem build_numerics : build.numerics = binary32 := rfl

@[simp] theorem binary32_fadd : binary32.fadd = fadd := rfl
@[simp] theorem binary32_fsub : binary32.fsub = fsub := rfl
@[simp] theorem binary32_fmul : binary32.fmul = fmul := rfl
@[simp] theorem binary32_i2f : binary32.i2f = i2f := rfl
@[simp] theorem binary32_f2i : binary32.f2i = f2i := rfl
@[simp] theorem binary32_alphaBits : binary32.alphaBits = 0x3F7EB852 := rfl

end Sys2Proof.Machine
end

