-- ==== Sys2Proof/Laws/Ops.lean ====
section
/-! SUPPORT. What each shared operation can do, said once: the pins, an effect, selection, the step, runs, and the two
meanings that can stop. -/

namespace Sys2Proof.Machine

/-! ## Pins -/

theorem pins_of_cons {s : State} {p : Pins} {l : List Pins} (h : s.inputs = p :: l) : s.pins = p := by
  simp [State.pins, h]

theorem pins_of_nil {s : State} (h : s.inputs = []) : s.pins = Config.envPins s.cycle := by
  simp [State.pins, h]

theorem pins_eq_of_inputs {s t : State} (hi : t.inputs = s.inputs) (hc : t.cycle = s.cycle) : t.pins = s.pins := by
  simp [State.pins, hi, hc]

@[simp] theorem pins_apply (s : State) (e : Effect build.windowN) : (s.apply e).pins = s.pins := rfl

@[simp] theorem pins_pushPins (s : State) (p : Pins) : (s.pushPins p).pins = p := rfl

theorem pins_eq_pinsAt_zero (s : State) : s.pins = s.pinsAt 0 := by
  unfold State.pins State.pinsAt
  cases s.inputs <;> simp

theorem pinsAt_nextEdge (s : State) (k : Nat) : s.nextEdge.pinsAt k = s.pinsAt (k + 1) := by
  unfold State.pinsAt
  cases h : s.inputs <;> simp [h, Nat.add_comm, Nat.add_left_comm]

@[simp] theorem pinsAt_apply (s : State) (e : Effect build.windowN) (k : Nat) : (s.apply e).pinsAt k = s.pinsAt k := rfl

/-! ## Effects -/

@[simp] theorem apply_hold (s : State) : s.apply s.toRegisters.hold = s := by
  simp [State.apply, Registers.hold]

/-- An outcome that takes place with a next state was an effect. -/
theorem run_eq_next {s t : State} {o : Host.Outcome (Effect build.windowN) Fault Refusal} (h : s.run o = .next t) :
    ∃ e, o = .next e ∧ t = s.apply e := by
  cases o with
  | next e => exact ⟨e, rfl, by simpa using h.symm⟩
  | fault r => cases h
  | refused r => cases h

/-- Every meaning is its effect on the registers, with this edge's pins as the only input (10_state.md R44). -/
theorem exec_eq_operate (i : Instr) (s : State) : exec i s = s.run (operate build i s.toRegisters s.pins) := by
  cases i <;> rfl

/-! ## Selection -/

theorem selection_of_rst {s : State} (h : s.pins.rst = true) : s.selection = [] := by
  simp [State.selection, Registers.selection, h]

theorem selection_of_ctl {s : State} (h : s.pins.rst = false) : s.selection = [s.ctl.code.setWidth 8] := by
  simp [State.selection, Registers.selection, h]

/-- What the code of a control state decodes to: its operation, and `FATAL` nothing. -/
theorem decode_code (c : Ctl) :
    decode [c.code.setWidth 8] =
      match c.operation with
      | some i => .ok i
      | none => .error .fatalSelectsNothing := by
  cases c <;> rfl

/-! ## The step -/

@[simp] theorem afterEdge_next (s : State) : afterEdge (.next s) = .next s.nextEdge := rfl

theorem afterEdge_eq_next {o : Host.Outcome State Fault Refusal} {t : State} (h : afterEdge o = .next t) :
    ∃ u, o = .next u ∧ t = u.nextEdge := by
  cases o <;> simp_all [afterEdge]

theorem step_of_operation {s : State} {i : Instr} (hr : s.pins.rst = false) (hi : s.ctl.operation = some i) :
    step s = afterEdge (exec i s) := by
  simp [step, selection_of_ctl hr, decode_code, hi]

/-- The step is the relation of 45_orchestrator.md R206 on the registers and this edge's pins, and then the clock edge
is over. -/
theorem step_eq_coreStep (s : State) : step s = afterEdge (s.run (coreStep build s.toRegisters s.pins)) := by
  unfold step coreStep State.selection
  cases decode (s.toRegisters.selection s.pins.rst) with
  | ok i => simp only [exec_eq_operate]
  | error e => simp only [State.run_next, apply_hold, afterEdge_next]

/-- All a step that answers a next state can have done: reset, stayed in `FATAL`, or executed the selected operation. -/
theorem step_next_cases {s t : State} (h : step s = .next t) :
    (s.pins.rst = true ∧ t = (s.apply (resetEffect build)).nextEdge) ∨
    (s.pins.rst = false ∧ s.ctl = .fatal ∧ t = s.nextEdge) ∨
    (s.pins.rst = false ∧ ∃ i u, s.ctl.operation = some i ∧ exec i s = .next u ∧ t = u.nextEdge) := by
  cases hr : s.pins.rst with
  | true =>
    left
    simp [step, selection_of_rst hr, decode, exec, execReset] at h
    exact ⟨rfl, h.symm⟩
  | false =>
    right
    cases hi : s.ctl.operation with
    | none =>
      left
      simp [step, selection_of_ctl hr, decode_code, hi] at h
      refine ⟨rfl, ?_, h.symm⟩
      cases hc : s.ctl <;> simp_all [Ctl.operation]
    | some i =>
      right
      rw [step_of_operation hr hi] at h
      obtain ⟨u, hu, ht⟩ := afterEdge_eq_next h
      exact ⟨rfl, i, u, rfl, hu, ht⟩

/-- The effect of one clock edge, by control state: reset wins, else the selected operation, else nothing. -/
def EdgeEffect (c : Config) (r : Registers c.windowN) (p : Pins) (e : Effect c.windowN) : Prop :=
  (p.rst = true ∧ e = resetEffect c) ∨
  (p.rst = false ∧
    match r.ctl with
    | .uninit => e = initEffect r p
    | .warmup => e = warmupWaitEffect c r p
    | .calTemp => e = calTempEffect r p
    | .calRead => e = calSampleEffect r p
    | .calDelay => e = calWaitEffect c r p
    | .calDone => e = calFinishEffect c r p
    | .poll => e = pollEffect c r p
    | .tickAcc => e = tAccEffect r p
    | .tickTemp => e = tTempEffect c r p
    | .tickProc => tProcEffect c r = .next e
    | .encode => e = encodeEffect c r
    | .tx => txByteEffect c r p = .next e
    | .fatal => e = r.hold)

theorem coreStep_next {c : Config} {r : Registers c.windowN} {p : Pins} {e : Effect c.windowN} :
    coreStep c r p = .next e ↔ EdgeEffect c r p e := by
  unfold coreStep EdgeEffect Registers.selection
  cases hr : p.rst with
  | true => simp [decode, operate, eq_comm]
  | false =>
    cases hc : r.ctl <;> simp [decode_code, Ctl.operation, operate, eq_comm]

/-- All a step that answers a next state can have done to the registers, the trace and the environment. -/
theorem step_next_effect {s t : State} (h : step s = .next t) :
    ∃ e, EdgeEffect build s.toRegisters s.pins e ∧ t = (s.apply e).nextEdge := by
  rw [step_eq_coreStep] at h
  obtain ⟨u, hu, rfl⟩ := afterEdge_eq_next h
  obtain ⟨e, he, rfl⟩ := run_eq_next hu
  exact ⟨e, coreStep_next.mp he, rfl⟩

/-! ## Runs -/

theorem coreRun_succ {c : Config} {env : Nat → Pins} {r q : Registers c.windowN} {n : Nat}
    (h : coreRun c env r n = some q) :
    coreRun c env r (n + 1) =
      match coreStep c q (env n) with
      | .next e => some e.regs
      | .fault _ => none
      | .refused _ => none := by
  cases hs : coreStep c q (env n) <;> simp [coreRun, h, hs]

/-- A run's first edge split off. -/
theorem coreRun_cons {c : Config} {env : Nat → Pins} {r : Registers c.windowN} {e : Effect c.windowN}
    (h : coreStep c r (env 0) = .next e) (n : Nat) :
    coreRun c env r (n + 1) = coreRun c (fun k => env (k + 1)) e.regs n := by
  induction n with
  | zero => simp [coreRun, h]
  | succ n ih => rw [coreRun, ih, coreRun]

/-- The registers along `n` steps are those of the run under the state's own environment. -/
theorem coreRun_of_steps {n : Nat} {s t : State} (h : steps n s = .next t) :
    coreRun build s.pinsAt s.toRegisters n = some t.toRegisters := by
  induction n generalizing s with
  | zero => simp only [steps, Host.Outcome.next.injEq] at h; simp [coreRun, h]
  | succ n ih =>
    simp only [steps] at h
    split at h
    · rename_i u hu
      rw [step_eq_coreStep] at hu
      obtain ⟨v, hv, rfl⟩ := afterEdge_eq_next hu
      obtain ⟨e, he, rfl⟩ := run_eq_next hv
      rw [pins_eq_pinsAt_zero] at he
      rw [coreRun_cons he]
      have hp : (s.apply e).nextEdge.pinsAt = fun k => s.pinsAt (k + 1) :=
        funext fun k => by rw [pinsAt_nextEdge, pinsAt_apply]
      simpa [hp] using ih h
    · cases h
    · cases h

/-- A run that stays at `q` while the pins do not satisfy `P` is still at `q` when they first do. -/
theorem coreRun_wait_until {c : Config} {env : Nat → Pins} {r q : Registers c.windowN} {n : Nat} (P : Pins → Prop)
    (h : coreRun c env r n = some q) (hstay : ∀ k, ¬ P (env k) → ∃ e, coreStep c q (env k) = .next e ∧ e.regs = q)
    (hP : ∃ k, P (env (n + k))) : ∃ m, n ≤ m ∧ coreRun c env r m = some q ∧ P (env m) := by
  obtain ⟨k, hk⟩ := hP
  induction k generalizing n with
  | zero => exact ⟨n, le_rfl, h, hk⟩
  | succ k ih =>
    by_cases h0 : P (env n)
    · exact ⟨n, le_rfl, h, h0⟩
    · obtain ⟨e, he, hr⟩ := hstay n h0
      have h1 : coreRun c env r (n + 1) = some q := by rw [coreRun_succ h, he]; simp [hr]
      obtain ⟨m, hm, h2⟩ := ih h1 (by rw [Nat.add_right_comm]; exact hk)
      exact ⟨m, by omega, h2⟩

/-- Two clock values less than `2^31` microseconds of true time apart: the later elapsed time is the earlier one and the
difference, when the earlier one is below `2^31`. -/
theorem elapsed_advance {start : U32} {a b : Nat} (hab : a ≤ b) (hgap : b < a + 2 ^ 31)
    (ha : (elapsed start (BitVec.ofNat 32 a)).toNat < 2 ^ 31) :
    (elapsed start (BitVec.ofNat 32 b)).toNat = (elapsed start (BitVec.ofNat 32 a)).toNat + (b - a) := by
  have := start.isLt
  simp only [elapsed, BitVec.toNat_sub, BitVec.toNat_ofNat] at ha ⊢
  omega

/-! ## The meanings that can stop -/

/-- A `T_PROC` that has an effect had a slot to write, produced no event, and wrote what R202 lists. -/
theorem tProcEffect_next {c : Config} {r : Registers c.windowN} {e : Effect c.windowN}
    (h : tProcEffect c r = .next e) :
    ∃ hk : r.bufIdx.toNat < 5,
      e = { regs :=
              { (r.append c (r.tickOut c) r.bufIdx.toNat hk) with
                window := (r.trackOffset c).window
                wrPos := (r.trackOffset c).wrPos
                off := (r.trackOffset c).off
                filt := (r.runFilter c).filt
                last := (r.runFilter c).last }
            events := [] } := by
  unfold tProcEffect at h
  split at h
  · rename_i hk
    exact ⟨hk, by simpa using h.symm⟩
  · cases h

/-- A `TX_BYTE` that has an effect had a byte at `tx_idx`. -/
theorem txByteEffect_next {c : Config} {r : Registers c.windowN} {p : Pins} {e : Effect c.windowN}
    (h : txByteEffect c r p = .next e) :
    ∃ hk : r.txIdx.toNat < 66, e = sendByte c r p (r.pkt[r.txIdx.toNat]'hk) := by
  unfold txByteEffect at h
  split at h
  · rename_i hk
    exact ⟨hk, by simpa using h.symm⟩
  · cases h

end Sys2Proof.Machine
end

