-- ==== Sys2Proof/Laws/PerInstr.lean ====
section
/-! SUPPORT. What is said of each instruction as syntax: the length of its encoding is that of its format
(30_encoding.md R90, R104; 70_reset_and_hazards.md R250). -/

namespace Sys2Proof.Laws

/-- The number of bytes of an instruction: a code for an operation, none for `RESET`, 66 for a packet. -/
def EncodedLength.expected (i : Instr) : Nat :=
  match i with
  | .init => 1
  | .warmupWait => 1
  | .calTemp => 1
  | .calSample => 1
  | .calWait => 1
  | .calFinish => 1
  | .poll => 1
  | .tAcc => 1
  | .tTemp => 1
  | .tProc => 1
  | .encode => 1
  | .txByte => 1
  | .reset => 0
  | .packet _ => Config.packetBytesTotal

/-- The encoder gives an instruction the bytes its format has. -/
def EncodedLength.Statement (i : Instr) : Prop := (encode i).length = EncodedLength.expected i

theorem EncodedLength.init : EncodedLength.Statement .init := rfl
theorem EncodedLength.warmupWait : EncodedLength.Statement .warmupWait := rfl
theorem EncodedLength.calTemp : EncodedLength.Statement .calTemp := rfl
theorem EncodedLength.calSample : EncodedLength.Statement .calSample := rfl
theorem EncodedLength.calWait : EncodedLength.Statement .calWait := rfl
theorem EncodedLength.calFinish : EncodedLength.Statement .calFinish := rfl
theorem EncodedLength.poll : EncodedLength.Statement .poll := rfl
theorem EncodedLength.tAcc : EncodedLength.Statement .tAcc := rfl
theorem EncodedLength.tTemp : EncodedLength.Statement .tTemp := rfl
theorem EncodedLength.tProc : EncodedLength.Statement .tProc := rfl
theorem EncodedLength.encode : EncodedLength.Statement .encode := rfl
theorem EncodedLength.txByte : EncodedLength.Statement .txByte := rfl
theorem EncodedLength.reset : EncodedLength.Statement .reset := rfl
theorem EncodedLength.packet (p : PacketFields) : EncodedLength.Statement (.packet p) :=
  Machine.packetBytes_length Machine.build p.z p.e p.n p.ckz p.cke p.ckn

end Sys2Proof.Laws
end

