-- ==== Sys2Proof/Tests/Slice0.lean ====
section
/-! SUPPORT. Tests. Expected values are those of 95_test_vectors.md (section named at each group) and of the tables of
30_encoding.md R104 and R91. The second half gives, for every statement with hypotheses, a state that meets them. -/

namespace Sys2Proof.Tests

open Sys2Proof.Machine

/-! ## Helpers -/

/-- Registers under the configuration `c` in control state `ctl`, the others as after reset. -/
def regsIn (c : Config) (ctl : Ctl) : Registers c.windowN := { Registers.reset c with ctl := ctl }

/-- A state with those registers and the pins `p` at the coming edge. -/
def inCtl (c : Ctl) (p : Pins) : State := { toRegisters := regsIn build c, inputs := [p], cycle := 0, trace := [] }

/-- Answering pins at time `t`. -/
def pinsNow (t : U32) : Pins := { answeringPins false with now := t }

/-- Pins with an acceleration reading. -/
def pinsAcc (x y z : Int) (t : U32) : Pins :=
  { answeringPins false with accX := BitVec.ofInt 16 x, accY := BitVec.ofInt 16 y, accZ := BitVec.ofInt 16 z, now := t }

/-- Pins of a silent environment: no handshake is answered. -/
def silent : Pins :=
  { answeringPins false with initAck := false, accValid := false, tmpValid := false, txReady := false }

/-- Answering pins with both error flags. -/
def failing : Pins := { answeringPins false with accErr := true, tmpErr := true }

/-- The values of the open parameters that a vector of 95_test_vectors.md names. -/
def params (windowN : Nat) (warmup delay : BitVec 31) (h : 1 ≤ windowN ∧ windowN ≤ 65536 := by decide) : Config :=
  { numerics := binary32
    windowN := windowN
    warmupUs := warmup.toNat
    calDelayUs := delay.toNat
    windowN_pos := h.1
    windowN_le := h.2
    warmupUs_lt := warmup.isLt
    calDelayUs_lt := delay.isLt }

/-- Five samples from integers. -/
def five (a b c d e : Int) : Samples :=
  #v[BitVec.ofInt 32 a, BitVec.ofInt 32 b, BitVec.ofInt 32 c, BitVec.ofInt 32 d, BitVec.ofInt 32 e]

/-- The third packet of 95_test_vectors.md section 2.4, written out. -/
def thirdPacket : List Byte :=
  [0xFC, 0x1B,
    0x01, 0x00, 0x00, 0x00, 0x02, 0x00, 0x00, 0x00, 0x03, 0x00, 0x00, 0x00, 0x04, 0x00, 0x00, 0x00, 0x05, 0x00, 0x00, 0x00,
    0xFF, 0xFF, 0xFF, 0xFF, 0xFE, 0xFF, 0xFF, 0xFF, 0xFD, 0xFF, 0xFF, 0xFF, 0xFC, 0xFF, 0xFF, 0xFF, 0xFB, 0xFF, 0xFF, 0xFF,
    0x00, 0x01, 0x00, 0x00, 0x00, 0x00, 0x01, 0x00, 0x00, 0x00, 0x00, 0x01, 0x00, 0x00, 0x00, 0x80, 0xFF, 0xFF, 0xFF, 0x7F,
    0x01, 0x04, 0x01, 0x00]

/-- Its fields. -/
def thirdFields : PacketFields :=
  { z := five 1 2 3 4 5, e := five (-1) (-2) (-3) (-4) (-5), n := five 256 65536 16777216 (-2147483648) 2147483647
    ckz := 0x01, cke := 0x04, ckn := 0x01 }

/-! ## Configuration: illegal parameters are refused by name (30_encoding.md R102) -/

theorem test_config_windowN : Config.ofParameters binary32 0 0 0 = .error .windowN ∧
    Config.ofParameters binary32 65537 0 0 = .error .windowN := ⟨rfl, rfl⟩
theorem test_config_delays : Config.ofParameters binary32 1 (2 ^ 31) 0 = .error .warmupUs ∧
    Config.ofParameters binary32 1 0 (2 ^ 31) = .error .calDelayUs := ⟨rfl, rfl⟩
theorem test_config_bounds : ∃ c, Config.ofParameters binary32 65536 (2 ^ 31 - 1) (2 ^ 31 - 1) = .ok c ∧
    c.windowN = 65536 ∧ c.stillThreshold = 1000 := ⟨_, rfl, rfl, rfl⟩

/-! ## WellFormed: each check refuses a term that breaks it alone -/

theorem test_wellFormed_third : WellFormed (.packet thirdFields) := by unfold WellFormed; decide
theorem test_wellFormed_zenith : ¬ WellFormed (.packet { thirdFields with ckz := 0x02 }) := by
  unfold WellFormed; decide
theorem test_wellFormed_east : ¬ WellFormed (.packet { thirdFields with cke := 0x00 }) := by
  unfold WellFormed; decide
theorem test_wellFormed_north : ¬ WellFormed (.packet { thirdFields with ckn := 0xFF }) := by
  unfold WellFormed; decide

/-! ## Decoding, words written out from 30_encoding.md R104 and R91 -/

theorem test_decode_init : decode [0x00] = .ok .init := by decide
theorem test_decode_warmupWait : decode [0x01] = .ok .warmupWait := by decide
theorem test_decode_calTemp : decode [0x02] = .ok .calTemp := by decide
theorem test_decode_calSample : decode [0x03] = .ok .calSample := by decide
theorem test_decode_calWait : decode [0x04] = .ok .calWait := by decide
theorem test_decode_calFinish : decode [0x05] = .ok .calFinish := by decide
theorem test_decode_poll : decode [0x06] = .ok .poll := by decide
theorem test_decode_tAcc : decode [0x07] = .ok .tAcc := by decide
theorem test_decode_tTemp : decode [0x08] = .ok .tTemp := by decide
theorem test_decode_tProc : decode [0x09] = .ok .tProc := by decide
theorem test_decode_encode : decode [0x0A] = .ok .encode := by decide
theorem test_decode_txByte : decode [0x0B] = .ok .txByte := by decide
theorem test_decode_reset : decode [] = .ok .reset := by decide
theorem test_decode_packet : decode thirdPacket = .ok (.packet thirdFields) := by decide
theorem test_encode_packet : encode (.packet thirdFields) = thirdPacket := by decide
theorem test_decode_fatal : decode [0x0C] = .error .fatalSelectsNothing := by decide
theorem test_decode_unused : decode [0x0D] = .error .unusedCode ∧ decode [0x0E] = .error .unusedCode ∧
    decode [0x0F] = .error .unusedCode := by decide
theorem test_decode_length : decode (thirdPacket.take 65) = .error .badLength ∧
    decode (thirdPacket ++ [0x00]) = .error .badLength := by decide
theorem test_decode_header : decode (thirdPacket.set 1 0x1C) = .error .badHeader := by decide
theorem test_decode_reserved : decode (thirdPacket.set 65 0x01) = .error .badReserved := by decide
theorem test_decode_checksums : decode (thirdPacket.set 2 0x00) = .error .badZenithChecksum ∧
    decode (thirdPacket.set 63 0x05) = .error .badEastChecksum ∧
    decode (thirdPacket.set 61 0xFF) = .error .badNorthChecksum := by decide
theorem test_tableWord : decodeTableWord 4 9 = some .tProc ∧ decodeTableWord 8 12 = none ∧
    decodeTableWord 0 0 = some .reset := by decide
theorem test_tableWord_packet : decodeTableWord 528 0x1BFC =
    some (.packet (PacketFields.ofSamples (five 0 0 0 0 0) (five 0 0 0 0 0) (five 0 0 0 0 0))) := by decide

/-! ## The calibrator, section 2.1 -/

theorem test_truncDiv : truncDiv 399 200 = 1 ∧ truncDiv (-399) 200 = -1 ∧ truncDiv (-199) 200 = 0 ∧
    truncDiv (-65538) 4 = -16384 ∧ truncDiv (-7) 1 = -7 ∧ truncDiv (-6553600) 200 = -32768 := by decide
theorem test_still : still build { e := 999, n := -999, z := 999 } = true ∧
    still build { e := 1000, n := 0, z := 0 } = false ∧ still build { e := -999, n := 999, z := -1000 } = false ∧
    still build { e := 700, n := 700, z := 700 } = true := by decide
theorem test_windowMean : windowMean #v[(16390 : I32), 16380, 16384, -32768] = 4096 ∧
    windowMean (windowPush #v[(16390 : I32), 16380, 16384, -32768] 0 32767) = 8190 ∧
    windowMean (windowPush #v[(0 : I32)] 0 (-32768)) = -32768 ∧ wrPosNext (3 : Fin 4) = 0 ∧
    wrPosNext (0 : Fin 1) = 0 := by decide

theorem test_calTemp_keeps_nan : ∃ t, exec .calTemp (inCtl .calTemp { pinsNow 0 with tmpData := 0x7FC00000 }) = .next t ∧
    t.calibTemp = 0x7FC00000 ∧ t.ctl = .calRead ∧ t.calCount = 0 := ⟨_, rfl, by decide⟩
theorem test_calTemp_error : ∃ t, exec .calTemp (inCtl .calTemp failing) = .next t ∧
    t.ctl = .fatal ∧ t.fatalCause = .calTempErr ∧ t.written = Written.nothing := ⟨_, rfl, by decide⟩
theorem test_calSample : ∃ t, exec .calSample
      { inCtl .calRead (pinsAcc 100 200 16384 5000) with sum := { x := 100, y := 200, z := 16384 }, calCount := 1 } = .next t ∧
    t.sum = { x := 200, y := 400, z := 32768 } ∧ t.calCount = 2 ∧ t.delayStart = 5000 ∧ t.ctl = .calDelay :=
  ⟨_, rfl, by decide⟩
theorem test_calSample_error : ∃ t, exec .calSample { inCtl .calRead failing with calCount := 2 } = .next t ∧
    t.ctl = .fatal ∧ t.fatalCause = .calAccErr ∧ t.calCount = 2 ∧ t.trace = [.acc 0 0 0 true] := ⟨_, rfl, by decide⟩
theorem test_calWait_wrap :
    (calWaitEffect (params 4 0 3000) { regsIn _ .calDelay with delayStart := 0xFFFFFFFF, calCount := 1 }
      (pinsNow 0xBB6)).regs.ctl = .calDelay ∧
    (calWaitEffect (params 4 0 3000) { regsIn _ .calDelay with delayStart := 0xFFFFFFFF, calCount := 1 }
      (pinsNow 0xBB7)).regs.ctl = .calRead := by decide
theorem test_calWait_done :
    (calWaitEffect (params 4 0 3000) { regsIn _ .calDelay with delayStart := 700000, calCount := 200 }
      (pinsNow 703000)).regs.ctl = .calDone := by decide
/-- The second `CAL_FINISH` vector, with its `WINDOW_N` = 2, through the step relation. -/
theorem test_calFinish_window : ∃ e : Effect 2, coreStep (params 2 0 0)
      { regsIn _ .calDone with sum := { x := 2300, y := -4300, z := 3200100 } } (pinsNow 0) = .next e ∧
    e.regs.off = { x := 11, y := -21, z := 16000 } ∧ e.regs.window.toList = [16000, 16000] ∧ e.regs.wrPos.val = 0 :=
  ⟨_, rfl, by decide⟩
theorem test_calFinish_seed : ∃ t, exec .calFinish (inCtl .calDone (pinsNow 123456)) = .next t ∧
    t.lastTick = 123456 ∧ t.ctl = .poll ∧ t.trace = [.now 123456] := ⟨_, rfl, by decide⟩

/-! ## The scheduler, section 2.2 -/

theorem test_due : due build 1000 20999 = false ∧ due build 1000 21000 = true ∧
    due build 0xFFFFF000 0x3E1F = false ∧ due build 0xFFFFF000 0x3E20 = true ∧ due build 21000 1000 = true := by decide
theorem test_poll_fire : ∃ t, exec .poll { inCtl .poll (pinsNow 21003) with lastTick := 1000 } = .next t ∧
    t.lastTick = 21000 ∧ t.ctl = .tickAcc := ⟨_, rfl, by decide⟩
theorem test_poll_idle : ∃ t, exec .poll { inCtl .poll (pinsNow 20999) with lastTick := 1000 } = .next t ∧
    t.lastTick = 1000 ∧ t.ctl = .poll ∧ t.trace = [.now 20999] := ⟨_, rfl, by decide⟩
theorem test_tAcc : ∃ t, exec .tAcc (inCtl .tickAcc (pinsAcc (-32768) 32767 16380 0)) = .next t ∧
    t.raw = { x := -32768, y := 32767, z := 16380 } ∧ t.ctl = .tickTemp := ⟨_, rfl, by decide⟩
theorem test_tAcc_error : ∃ t, exec .tAcc { inCtl .tickAcc failing with raw := { x := 1, y := 2, z := 3 } } = .next t ∧
    t.ctl = .fatal ∧ t.fatalCause = .tickAccErr ∧ t.raw = { x := 1, y := 2, z := 3 } := ⟨_, rfl, by decide⟩
theorem test_tTemp_count : ∃ t, exec .tTemp { inCtl .tickTemp silent with tempCtr := 48 } = .next t ∧
    t.tempCtr = 49 ∧ t.ctl = .tickProc ∧ t.trace = [] := ⟨_, rfl, by decide⟩
theorem test_tTemp_read : ∃ t, exec .tTemp
      { inCtl .tickTemp { pinsNow 0 with tmpData := 0x41CC0000 } with tempCtr := 49 } = .next t ∧
    t.tempCtr = 0 ∧ t.currentTemp = 0x41CC0000 ∧ t.ctl = .tickProc := ⟨_, rfl, by decide⟩

/-! ## The high-pass filter, section 2.3 -/

theorem test_i2f : i2f 0 = 0 ∧ i2f (-1) = 0xBF800000 ∧ i2f 65535 = 0x477FFF00 ∧ i2f 16777217 = 0x4B800000 ∧
    i2f 16777219 = 0x4B800002 ∧ i2f 2147483647 = 0x4F000000 ∧ i2f 0x80000000 = 0xCF000000 := by decide
theorem test_fadd : fadd 0x3F800000 0x3F800000 = 0x40000000 ∧ fadd 0x4B800000 0x3F800000 = 0x4B800000 ∧
    fadd 0x4B800000 0x40400000 = 0x4B800002 ∧ fadd 0x3F7EB852 0x42480000 = 0x424BFAE1 := by decide
theorem test_fsub : fsub 0x424BFAE1 0x3F800000 = 0x4247FAE1 ∧ fsub 0x447A0000 0x447A0000 = 0 ∧
    fsub 0 0x3F800000 = 0xBF800000 := by decide
theorem test_fmul : fmul 0x3F7EB852 0x447A0000 = 0x4478C000 ∧ fmul 0x3F7EB852 0x4478C000 = 0x4477819A ∧
    fmul 0x3F7EB852 0x80000000 = 0x80000000 ∧ fmul 0x3F7EB852 0xC0800000 = 0xC07EB852 := by decide
theorem test_f2i : f2i 0x80000000 = 0 ∧ f2i 0xBF7EB852 = 0 ∧ f2i 0xBFFFFFFF = -1 ∧ f2i 0x4477819A = 990 ∧
    f2i 0xC77FFDD7 = -65533 ∧ f2i 1 = 0 := by decide
theorem test_f2i_saturates : f2i 0x4F000000 = 0x7FFFFFFF ∧ f2i 0x7F800000 = 0x7FFFFFFF ∧ f2i 0xCF000000 = 0x80000000 ∧
    f2i 0xCF000001 = 0x80000000 ∧ f2i 0xFF800000 = 0x80000000 ∧ f2i 0x7FC00000 = 0 := by decide
theorem test_hpfStep : hpfStep binary32 0 0 1000 = (0x4478C000, 1000) ∧
    hpfStep binary32 0x477EB6D8 65535 (-65535) = (0xC77FFDD7, -65535) ∧
    hpfStep binary32 0x42C60148 100 0 = (0xBF7E1524, 0) := by decide

/-! ## The packet encoder, section 2.4 -/

theorem test_leBytes : leBytes (-16384) = [0x00, 0xC0, 0xFF, 0xFF] ∧ leBytes 305419896 = [0x78, 0x56, 0x34, 0x12] := by
  decide
theorem test_checksum : checksum (five 1 2 3 4 5) = 0x01 ∧ checksum (five (-3) 6 0 0 (-3)) = 0x06 ∧
    checksum (five 49 1094 (-5) (-15) 0) = 0x79 := by decide
theorem test_encode : ∃ t, exec .encode
      { inCtl .encode silent with bufIdx := 5, buf := { e := thirdFields.e, n := thirdFields.n, z := thirdFields.z } } =
      .next t ∧
    t.pkt.toList = thirdPacket ∧ t.bufIdx = 0 ∧ t.txIdx = 0 ∧ t.ctl = .tx := ⟨_, rfl, by decide⟩
theorem test_packet : ∃ t, exec (.packet thirdFields) (inCtl .poll silent) = .next t ∧ t.pkt.toList = thirdPacket ∧
    t.ctl = .tx := ⟨_, rfl, by decide⟩
/-- A state that sends the third packet. -/
def sending (idx : BitVec 7) (p : Pins) : State :=
  { inCtl .tx p with
    txIdx := idx
    pkt := encodePacket build thirdFields.z thirdFields.e thirdFields.n
    written := { Written.nothing with pkt := true } }
theorem test_txByte : ∃ t, exec .txByte (sending 63 (answeringPins false)) = .next t ∧ t.txIdx = 64 ∧
    t.trace = [.tx 0x04] ∧ t.ctl = .tx := ⟨_, rfl, by decide⟩
theorem test_txByte_last : ∃ t, exec .txByte (sending 65 (answeringPins false)) = .next t ∧ t.txIdx = 65 ∧
    t.trace = [.tx 0x00] ∧ t.ctl = .poll := ⟨_, rfl, by decide⟩

/-! ## The pipeline, section 2.5 -/

/-- The registers before the table's tick. -/
def regsBeforeProc (c : Config) (hpf dyn : Bool) : Registers c.windowN :=
  { regsIn c .tickProc with
    cfgHpf := hpf
    cfgDyn := dyn
    raw := { x := 101, y := 199, z := 16380 }
    off := { x := 100, y := 200, z := 16384 }
    window := Vector.replicate c.windowN 16384 }
/-- The state before the table's tick. -/
def beforeProc (hpf dyn : Bool) : State :=
  { inCtl .tickProc silent with toRegisters := regsBeforeProc build hpf dyn }
theorem test_tProc_v1 : ∃ t, exec .tProc (beforeProc false false) = .next t ∧
    t.buf.e[0] = 1 ∧ t.buf.n[0] = -1 ∧ t.buf.z[0] = -4 ∧ t.off.z = 16384 ∧ t.bufIdx = 1 ∧ t.ctl = .poll :=
  ⟨_, rfl, by decide⟩
/-- The table's v2 tick, with its `WINDOW_N` = 4, through the step relation. -/
theorem test_tProc_v2 : ∃ e : Effect 4, coreStep (params 4 0 0) (regsBeforeProc _ true true) silent = .next e ∧
    (e.regs.buf.e[0] = 0 ∧ e.regs.buf.n[0] = 0 ∧ e.regs.buf.z[0] = -3) ∧
    (e.regs.window.toList = [16380, 16384, 16384, 16384] ∧ e.regs.wrPos.val = 1 ∧ e.regs.off.z = 16383) ∧
    e.regs.filt = { e := 0x3F7EB852, n := 0xBF7EB852, z := 0xC07EB852 } ∧ e.regs.last = { e := 1, n := -1, z := -4 } :=
  ⟨_, rfl, by decide⟩

/-! ## Lifecycle, section 2.6 -/

theorem test_init : ∃ t, exec .init (inCtl .uninit { pinsNow 0x400 with cfgHpf := true }) = .next t ∧
    t.cfgHpf = true ∧ t.cfgDyn = false ∧ t.delayStart = 0x400 ∧ t.ctl = .warmup ∧ t.trace = [.envInit, .now 0x400] :=
  ⟨_, rfl, by decide⟩
theorem test_warmupWait :
    (warmupWaitEffect (params 4 100000 0) { regsIn _ .warmup with delayStart := 0x400 } (pinsNow 0x18A9F)).regs.ctl =
      .warmup ∧
    (warmupWaitEffect (params 4 100000 0) { regsIn _ .warmup with delayStart := 0x400 } (pinsNow 0x18AA0)).regs.ctl =
      .calTemp := by
  decide
theorem test_reset : ∃ t, exec .reset (sending 10 silent) = .next t ∧ t.ctl = .uninit ∧ t.txIdx = 0 ∧
    t.written = Written.nothing ∧ t.filt = { e := 0, n := 0, z := 0 } := ⟨_, rfl, by decide⟩
theorem test_fatal_stays : ∃ t, step { inCtl .fatal silent with fatalCause := .tickAccErr } = .next t ∧
    t.ctl = .fatal ∧ t.fatalCause = .tickAccErr ∧ t.trace = [] ∧ (t.outPins build false).fatal = true :=
  ⟨_, rfl, by decide⟩

/-! ## Witnesses: states and operands that meet the hypotheses of the statements, clause by clause

A step's next state is given by `rfl`; the fields a hypothesis speaks of are decided. -/

/-- A state whose selected operation is `c`'s, without reset, as `SelectedBy` asks. -/
def selects (c : Ctl) : Bool := decide ((inCtl c silent).ctl = c ∧ (inCtl c silent).pins.rst = false)

theorem witness_SelectedBy : selects .uninit ∧ selects .warmup ∧ selects .calTemp ∧ selects .calRead ∧ selects .calDelay ∧
    selects .calDone ∧ selects .poll ∧ selects .tickAcc ∧ selects .tickTemp ∧ selects .tickProc ∧ selects .encode ∧
    selects .tx := by decide

theorem witness_InitLatchesStrapsAndStartsWarmup :
    (inCtl .uninit (pinsNow 0)).pins.initAck = true ∧ (inCtl .uninit silent).pins.initAck = false := by decide

theorem witness_CalTempStoresReferenceAndClearsSums :
    ((inCtl .calTemp (pinsNow 0)).pins.tmpValid = true ∧ (inCtl .calTemp (pinsNow 0)).pins.tmpErr = false) ∧
    ((inCtl .calTemp failing).pins.tmpValid = true ∧ (inCtl .calTemp failing).pins.tmpErr = true) ∧
    (inCtl .calTemp silent).pins.tmpValid = false := by decide

theorem witness_CalSampleAddsOneReading :
    ((inCtl .calRead (pinsNow 0)).pins.accValid = true ∧ (inCtl .calRead (pinsNow 0)).pins.accErr = false) ∧
    ((inCtl .calRead failing).pins.accValid = true ∧ (inCtl .calRead failing).pins.accErr = true) ∧
    (inCtl .calRead silent).pins.accValid = false := by decide

theorem witness_PollFiresAdditively :
    20000 ≤ usSince (inCtl .poll (pinsNow 20000)).lastTick (inCtl .poll (pinsNow 20000)).pins.now ∧
    usSince (inCtl .poll (pinsNow 19999)).lastTick (inCtl .poll (pinsNow 19999)).pins.now < 20000 := by decide

theorem witness_TAccStoresOneReading :
    ((inCtl .tickAcc (pinsNow 0)).pins.accValid = true ∧ (inCtl .tickAcc (pinsNow 0)).pins.accErr = false) ∧
    ((inCtl .tickAcc failing).pins.accValid = true ∧ (inCtl .tickAcc failing).pins.accErr = true) ∧
    (inCtl .tickAcc silent).pins.accValid = false := by decide

/-- `T_TEMP` at a count of 48 or 49. -/
def atCount (n : BitVec 6) (p : Pins) : State := { inCtl .tickTemp p with tempCtr := n }

theorem witness_TTempReadsEveryFiftiethTick :
    (atCount 48 silent).tempCtr.toNat ≠ 49 ∧
    ((atCount 49 (pinsNow 0)).tempCtr.toNat = 49 ∧ (atCount 49 (pinsNow 0)).pins.tmpValid = true ∧
      (atCount 49 (pinsNow 0)).pins.tmpErr = false) ∧
    ((atCount 49 failing).tempCtr.toNat = 49 ∧ (atCount 49 failing).pins.tmpValid = true ∧
      (atCount 49 failing).pins.tmpErr = true) ∧
    ((atCount 49 silent).tempCtr.toNat = 49 ∧ (atCount 49 silent).pins.tmpValid = false) := by decide

/-- With the gate open and slot 4 next; with the gate closed by the boundary value 1000 and slot 0 next. The values `v`
and `f` are what their equations say. -/
def procFull : State := { beforeProc true true with bufIdx := 4 }
/-- `cx` = 1000: not still. -/
def procMoving : State := { beforeProc false true with raw := { x := 1100, y := 200, z := 16384 } }

theorem witness_TProcCorrectsTracksFiltersAppends :
    (procFull.cfgDyn = true ∧ procFull.bufIdx.toNat = 4 ∧
      procFull.corrected = { e := 1, n := -1, z := -4 } ∧
      (|(1 : Int)| < 1000 ∧ |(-1 : Int)| < 1000 ∧ |(-4 : Int)| < 1000)) ∧
    (procMoving.cfgDyn = true ∧ procMoving.bufIdx.toNat = 0 ∧ procMoving.corrected = { e := 1000, n := 0, z := 0 } ∧
      ¬ |(1000 : Int)| < 1000) := by decide

theorem witness_TxByteSendsTheNextByte :
    ((sending 0 (pinsNow 0)).pins.txReady = true ∧ (sending 0 (pinsNow 0)).txIdx.toNat < 65) ∧
    ((sending 64 (pinsNow 0)).pins.txReady = true ∧ (sending 64 (pinsNow 0)).txIdx.toNat < 65) ∧
    ((sending 65 (pinsNow 0)).pins.txReady = true ∧ (sending 65 (pinsNow 0)).txIdx.toNat = 65) ∧
    ((sending 65 silent).pins.txReady = false ∧ (sending 65 silent).txIdx.toNat < 66) := by decide

theorem witness_ImpossibleIndexStopsByName :
    4 < ({ procFull with bufIdx := 5 } : State).bufIdx.toNat ∧ 65 < (sending 66 silent).txIdx.toNat := by decide

theorem witness_StepRunsTheDecodedInstruction :
    (decode (inCtl .poll silent).selection = .ok .poll ∧ ∃ t, exec .poll (inCtl .poll silent) = .next t) ∧
    (decode ({ procFull with bufIdx := 5 } : State).selection = .ok .tProc ∧
      exec .tProc { procFull with bufIdx := 5 } = .fault .slotIndex) :=
  ⟨⟨by decide, _, rfl⟩, by decide, rfl⟩

theorem witness_CtlAloneSelectsTheOperation :
    (inCtl .poll silent).pins.rst = false ∧ Ctl.operation .poll = some .poll ∧
    (inCtl .fatal silent).pins.rst = false ∧ Ctl.operation .fatal = none := by decide

theorem witness_PlacedWordRunsAtTheNextStep :
    decodeTableWord 0 0 = some .reset ∧ decodeTableWord 4 0 = some .init ∧ decodeTableWord 4 11 = some .txByte ∧
    ∃ p, decodeTableWord 528 0x1BFC = some (.packet p) :=
  ⟨by decide, by decide, by decide, _, test_tableWord_packet⟩

theorem witness_ResetLeavesTheResetValues : (inCtl .fatal (answeringPins true)).pins.rst = true := by decide

/-- Three edges of reset in the middle of a packet, then its release. -/
def inReset : State :=
  { sending 10 silent with inputs := [answeringPins true, answeringPins true, answeringPins true, answeringPins false] }

theorem witness_ResetHoldsUntilReleased : (∀ k, k < 2 + 1 → (inReset.pinsAt k).rst = true) ∧
    (inReset.pinsAt (2 + 1)).rst = false := by
  refine ⟨?_, rfl⟩
  intro k hk
  interval_cases k <;> rfl

theorem witness_FatalStaysUntilReset :
    (inCtl .fatal failing).ctl = .fatal ∧ (inCtl .fatal failing).pins.rst = false := by decide

theorem witness_FatalIsPreciseAndNamesItsCause :
    (∃ t, step (inCtl .calTemp failing) = .next t ∧ t.ctl = .fatal) ∧
    (∃ t, step (inCtl .calRead failing) = .next t ∧ t.ctl = .fatal) ∧
    (∃ t, step (inCtl .tickAcc failing) = .next t ∧ t.ctl = .fatal) ∧
    (∃ t, step (atCount 49 failing) = .next t ∧ t.ctl = .fatal) :=
  ⟨⟨_, rfl, by decide⟩, ⟨_, rfl, by decide⟩, ⟨_, rfl, by decide⟩, ⟨_, rfl, by decide⟩⟩

theorem witness_NoErrorFlagsNoFatal :
    ((inCtl .tickAcc (pinsNow 0)).Safe ∧ (inCtl .tickAcc (pinsNow 0)).pins.accErr = false ∧
      (inCtl .tickAcc (pinsNow 0)).pins.tmpErr = false) ∧ ∃ t, step (inCtl .tickAcc (pinsNow 0)) = .next t :=
  ⟨⟨⟨by decide, by decide⟩, by decide, by decide⟩, _, rfl⟩

/-- In control state `c` the operation holds under the silent pins. -/
def holds (c : Ctl) : Bool :=
  !(inCtl c silent).pins.rst && (inCtl c silent).holding && decide ((inCtl c silent).txIdx.toNat ≤ 65)

theorem witness_HoldKeepsStateAndRequests : holds .uninit ∧ holds .calTemp ∧ holds .calRead ∧ holds .tickAcc ∧ holds .tx ∧
    ((atCount 49 silent).pins.rst = false ∧ (atCount 49 silent).holding = true) ∧
    ((sending 65 silent).holding = true ∧ (sending 65 silent).txIdx.toNat ≤ 65) := by decide

/-- The clauses over all registers: the byte offered at the last index, nothing offered in reset or in `POLL`, and no
temperature request on a tick that is not a 50th. -/
theorem witness_outputPins :
    ((sending 65 silent).outPins build false).txData = some 0x00 ∧
    ((sending 63 silent).outPins build false).txData = some 0x04 ∧
    ((sending 65 silent).outPins build true).txData = none ∧ ((inCtl .poll silent).outPins build false).txData = none ∧
    ((atCount 48 silent).outPins build false).tmpReq = false ∧
    ((atCount 49 silent).outPins build false).tmpReq = true := by decide

theorem witness_EveryStepIsAnEdgeOfTheGraph :
    ((inCtl .poll (pinsNow 20000)).calCount.toNat ≤ 200 ∧
      ∃ t, step (inCtl .poll (pinsNow 20000)) = .next t ∧ t.ctl = .tickAcc) ∧
    ({ inCtl .calDelay silent with calCount := 200 } : State).calCount.toNat ≤ 200 :=
  ⟨⟨by decide, _, rfl, by decide⟩, by decide⟩

theorem witness_EdgesOfTheGraphAreExclusive : (∃ t, step (inCtl .poll (pinsNow 20000)) = .next t) ∧
    Edge (inCtl .poll (pinsNow 20000)) (inCtl .poll (pinsNow 20000)).ctl .tickAcc :=
  ⟨⟨_, rfl⟩, .fire (by decide) (by decide)⟩

theorem witness_WriteRightsOfTheAccessTable :
    (∃ t, exec .tProc procFull = .next t) ∧ RegGroup.lastTick ∉ mayWrite .tProc :=
  ⟨⟨_, rfl⟩, by decide⟩

theorem witness_EventsOfAStep : ∃ t, step (inCtl .calRead (pinsAcc 1 2 3 4)) = .next t ∧
    t.trace = [.acc 1 2 3 false, .now 4] := ⟨_, rfl, by decide⟩

theorem witness_DecodeOfEncodeIsTheInstruction : WellFormed .poll ∧ WellFormed (.packet thirdFields) :=
  ⟨trivial, test_wellFormed_third⟩

theorem witness_DecodedPacketIsItsBytes : decode thirdPacket = .ok (.packet thirdFields) := test_decode_packet

theorem witness_IntegerBytesAreLittleEndian : 0 < 32 ∧ 31 < 32 := by decide

theorem witness_PacketLayoutByteByByte :
    thirdPacket = (encodePacket build thirdFields.z thirdFields.e thirdFields.n).toList ∧ 4 < 5 ∧ 3 < 4 := by decide

theorem witness_ChecksumDoesNotDependOnOrder : (five 1 2 3 4 5).toList.Perm (five 5 4 3 2 1).toList ∧
    five 1 2 3 4 5 ≠ five 5 4 3 2 1 := by decide

theorem witness_PacketShorthandSendsTheWholePacket : (inCtl .encode (pinsNow 0)).pins.txReady = true := by decide

theorem witness_TruncDivIsTheTruncatedQuotient : (0 : Int) < 1 ∧ (0 : Int) < 200 ∧ (0 : Int) < 65536 := by decide

theorem witness_IdenticalSamplesCalibrateExactly :
    (inCtl .calTemp (pinsAcc (-32768) 32767 (-1) 0)).pins.tmpValid = true ∧
    (inCtl .calTemp (pinsAcc (-32768) 32767 (-1) 0)).pins.tmpErr = false ∧
    (inCtl .calTemp (pinsAcc (-32768) 32767 (-1) 0)).pins.accValid = true ∧
    (inCtl .calTemp (pinsAcc (-32768) 32767 (-1) 0)).pins.accErr = false := by decide

/-- A tick that changes `off_z` whatever `WINDOW_N` is: every window entry and the reading are 0, the offset is 5. -/
def drifting : State := { inCtl .tickProc silent with cfgDyn := true, off := { x := 0, y := 0, z := 5 } }

theorem witness_HorizontalOffsetsAreImmutable : drifting.ctl.sampling = true ∧ drifting.pins.rst = false ∧
    ∃ t, step drifting = .next t ∧ t.off.z ≠ drifting.off.z := by
  refine ⟨by decide, by decide, _, rfl, ?_⟩
  have hz : truncDiv 0 build.windowN = 0 := by simp [truncDiv]
  have hw : windowPush (Vector.replicate build.windowN (0 : I32)) ⟨0, build.windowN_pos⟩ 0 =
      Vector.replicate build.windowN 0 := by
    apply Vector.ext
    intro i hi
    rw [windowPush_getElem]
    simp [sext16]
  show windowMean (windowPush (Vector.replicate build.windowN (0 : I32)) ⟨0, build.windowN_pos⟩ 0) ≠ 5
  rw [hw]
  simp [windowMean, hz]

theorem witness_ElapsedIsExactAcrossAWrap :
    2 ^ 32 - 1 ≤ 2 ^ 32 ∧ 2 ^ 32 - (2 ^ 32 - 1) < 2 ^ 32 ∧ 7 ≤ 7 + (2 ^ 32 - 1) ∧ 7 + (2 ^ 32 - 1) - 7 < 2 ^ 32 := by decide

theorem witness_LastTickAdvancesByTicksFired : (inCtl .poll (pinsNow 20000)).ctl.sampling = true ∧
    (∀ k, k < 1 → ((inCtl .poll (pinsNow 20000)).pinsAt k).rst = false) ∧
    (∃ t, steps 1 (inCtl .poll (pinsNow 20000)) = .next t) ∧ fires 1 (inCtl .poll (pinsNow 20000)) = 1 :=
  ⟨by decide, by intro k hk; interval_cases k; rfl, ⟨_, rfl⟩, by decide⟩

theorem witness_PollSeesTheBacklog : 1000 + 3 * 20000 ≤ 61000 ∧ 61000 - (1000 + 3 * 20000) < 2 ^ 32 := by decide

/-- Ready for a tick, with `k` samples in the buffer, in an environment that answers at once for 70 edges. -/
def tickReady (hpf : Bool) (k : BitVec 3) : State :=
  { State.reset with ctl := .tickAcc, cfgHpf := hpf, bufIdx := k, inputs := List.replicate 70 (answeringPins false) }

theorem tickReady_inv (hpf : Bool) (k : BitVec 3) (h : k.toNat ≤ 4) : (tickReady hpf k).Inv where
  bufIdx_range := by show k.toNat ≤ 5; omega
  bufIdx_full := by
    show k.toNat = 5 ↔ Ctl.tickAcc = Ctl.encode
    constructor
    · intro h5; omega
    · intro h5; cases h5
  txIdx_range := Nat.zero_le _
  tempCtr_range := Nat.zero_le _
  calCount_range := Nat.zero_le _
  fatal_cause := by
    show FatalCause.none ≠ .none ↔ Ctl.tickAcc = .fatal
    decide
  more_samples := by intro h; cases h
  all_samples := by intro h; cases h
  sums := by rintro (h | h | h) <;> cases h
  offsets := by
    intro _
    show InI16 0 ∧ InI16 0 ∧ InI16 0
    simp [InI16]
  window_entries := by
    intro _ i hi
    simp [tickReady, InI16]
  window_mean := by
    intro _
    show (0 : I32) = windowMean (Vector.replicate build.windowN 0)
    simp [windowMean, truncDiv]
  last_range := by
    show InCorrected 0 ∧ InCorrected 0 ∧ InCorrected 0
    simp [InCorrected]
  slots := by
    intro _ _ j hj _
    simp [SlotSatisfies, tickReady, InCorrected]

theorem tickReady_cooperative (hpf : Bool) (j : BitVec 3) :
    ∀ k, k < 70 → cooperative ((tickReady hpf j).pinsAt k) = true := by
  intro k hk
  have h : (tickReady hpf j).inputs[k]? = some (answeringPins false) := by
    show (List.replicate 70 (answeringPins false))[k]? = _
    rw [List.getElem?_replicate, if_pos hk]
  rw [State.pinsAt, h]
  rfl

theorem witness_TickReturnsToPoll :
    ((tickReady false 3).Inv ∧ (tickReady false 3).ctl = .tickAcc ∧
      (∀ k, k < 70 → cooperative ((tickReady false 3).pinsAt k) = true) ∧ (tickReady false 3).bufIdx.toNat < 4) ∧
    ((tickReady false 4).Inv ∧ (tickReady false 4).ctl = .tickAcc ∧
      (∀ k, k < 70 → cooperative ((tickReady false 4).pinsAt k) = true) ∧ (tickReady false 4).bufIdx.toNat = 4) :=
  ⟨⟨tickReady_inv false 3 (by decide), by decide, tickReady_cooperative false 3, by decide⟩,
    tickReady_inv false 4 (by decide), by decide, tickReady_cooperative false 4, by decide⟩

/-- An environment that answers at every edge, the edges 20 ms apart. -/
def tickingEnv (k : Nat) : Pins := pinsNow (BitVec.ofNat 32 (20000 * k))

/-- With pins that answer, no operation waits. -/
theorem tickingEnv_answers (r : Registers build.windowN) (k : Nat) : r.waits build (tickingEnv k) = false := by
  unfold Registers.waits
  cases r.ctl <;> simp [tickingEnv, pinsNow, answeringPins]

/-- The progress assumptions of R212 together: they have an environment, at any state with the invariant. -/
theorem witness_progress : (tickReady true 4).Inv ∧ (tickReady true 4).ctl ≠ .fatal ∧ NeverResetsNorFails tickingEnv ∧
    HandshakesComplete build tickingEnv (tickReady true 4).toRegisters ∧ ShowsTrueTime tickingEnv (fun k => 20000 * k) ∧
    TimePasses (fun k => 20000 * k) ∧ ClockIsWatched (fun k => 20000 * k) := by
  refine ⟨tickReady_inv true 4 (by decide), by decide, fun _ => ⟨rfl, rfl, rfl⟩, ?_, ⟨fun _ => rfl, ?_⟩, ?_, ?_⟩
  · exact fun n q _ => ⟨0, tickingEnv_answers q _⟩
  · intro k; show 20000 * k ≤ 20000 * (k + 1); omega
  · exact fun b => ⟨b, by show b ≤ 20000 * b; omega⟩
  · intro k; show 20000 * (k + 1) < 20000 * k + 2 ^ 31; omega

/-- The last exact integers, and above them a tie (16777217) with its two neighbours. -/
theorem witness_SmallIntegersConvertExactly :
    (|(16777216 : I32).toInt| ≤ 2 ^ 24 ∧ |(-16777216 : I32).toInt| ≤ 2 ^ 24) ∧
    (isFinite 0x4B800001 = true ∧ |value (i2f 16777217) - (16777217 : I32).toInt * 2 ^ 149| =
        |value 0x4B800001 - (16777217 : I32).toInt * 2 ^ 149| ∧ value 0x4B800001 ≠ value (i2f 16777217)) := by decide

/-- The least and the greatest binary32 values that `f2i` truncates, and their neighbours that it saturates. -/
theorem witness_FloatToIntegerTruncatesAndSaturates :
    (isFinite 0xCF000000 = true ∧ -(2 ^ 31 * 2 ^ 149) ≤ value 0xCF000000 ∧ value 0xCF000000 < 2 ^ 31 * 2 ^ 149) ∧
    (isFinite 0x4EFFFFFF = true ∧ -(2 ^ 31 * 2 ^ 149) ≤ value 0x4EFFFFFF ∧ value 0x4EFFFFFF < 2 ^ 31 * 2 ^ 149) ∧
    (isFinite 0x4F000000 = true ∧ 2 ^ 31 * 2 ^ 149 ≤ value 0x4F000000) ∧
    (isInf 0x7F800000 = true ∧ (0x7F800000 : F32).msb = false) ∧
    (isFinite 0xCF000001 = true ∧ value 0xCF000001 < -(2 ^ 31 * 2 ^ 149)) ∧
    (isInf 0xFF800000 = true ∧ (0xFF800000 : F32).msb = true) ∧ isNan 0x7FC00000 = true := by decide

/-- A tie of two equally near values (16777216 + 1), a tie at the smallest product, and ordinary operands. -/
theorem witness_AddAndMultiplyRoundToNearestEven :
    (isFinite 0x4B800000 = true ∧ isFinite 0x3F800000 = true ∧ isFinite 0x4B800001 = true ∧
      isFinite (fadd 0x4B800000 0x3F800000) = true ∧ isFinite (fmul 0x4B800000 0x3F800000) = true) ∧
    (|value (fadd 0x4B800000 0x3F800000) - (value 0x4B800000 + value 0x3F800000)| =
        |value 0x4B800001 - (value 0x4B800000 + value 0x3F800000)| ∧
      value 0x4B800001 ≠ value (fadd 0x4B800000 0x3F800000)) ∧
    (|value (fmul 1 0x3F000000) * 2 ^ 149 - value 1 * value 0x3F000000| =
        |value 1 * 2 ^ 149 - value 1 * value 0x3F000000| ∧ value 1 ≠ value (fmul 1 0x3F000000)) := by decide

theorem witness_AddAndMultiplyOverflowToInfinity :
    (isFinite 0x7F7FFFFF = true ∧ isFinite 0x73000000 = true ∧ isInf (fadd 0x7F7FFFFF 0x73000000) = true) ∧
    (isFinite 0x72FFFFFF = true ∧ isInf (fadd 0x7F7FFFFF 0x72FFFFFF) = false) ∧
    (value 0x3F800000 + value 0xBF800000 = 0 ∧ value 0x80000000 + value 0x80000000 = 0 ∧
      value 0x80000000 + value 0x00000000 = 0) ∧
    (value 0x80000000 * value 0x3F800000 = 0 ∧ isNan 0x7F800001 = true ∧ isNan 0xFFFFFFFF = true) ∧
    (isInf 0x7F800000 = true ∧ isInf 0xFF800000 = true ∧ (0x7F800000 : F32) ≠ 0xFF800000) ∧
    (isFinite 0x80000000 = true ∧ value 0x80000000 = 0 ∧ isFinite 1 = true ∧ value 1 ≠ 0) := by decide

/-- The tick of `procFull` with another reading on one axis. -/
def otherX : State := { procFull with raw := { procFull.raw with x := 7 } }
/-- The tick of `procFull` with another reading on the other two axes. -/
def otherYZ : State := { procFull with raw := { procFull.raw with y := -9, z := 3 } }

theorem witness_LanesAreIndependent : (∃ t t', exec .tProc procFull = .next t ∧ exec .tProc otherX = .next t' ∧
      otherX.raw.y = procFull.raw.y ∧ otherX.raw.z = procFull.raw.z ∧ otherX.off = procFull.off ∧
      otherX.filt = procFull.filt ∧ otherX.last = procFull.last ∧ otherX.buf = procFull.buf) ∧
    (∃ t t', exec .tProc procFull = .next t ∧ exec .tProc otherYZ = .next t' ∧ otherYZ.raw.x = procFull.raw.x ∧
      otherYZ.bufIdx = procFull.bufIdx ∧ otherYZ.cfgHpf = procFull.cfgHpf) :=
  ⟨⟨_, _, rfl, rfl, rfl, rfl, rfl, rfl, rfl, rfl⟩, _, _, rfl, rfl, rfl, rfl, rfl⟩

/-- The scenario of section 1, S6, at a count of ticks. -/
def scenario (n : BitVec 6) : State :=
  { inCtl .tickAcc (pinsAcc 100 200 16384 0) with off := { x := 100, y := 200, z := 16384 }, tempCtr := n }

/-- The premises of `SamplesAtTheOffsetsGiveTheZeroPacket`. -/
def atTheOffsets (s : State) : Bool :=
  s.pins.accValid && !s.pins.accErr && !s.cfgHpf && !s.cfgDyn && decide (s.bufIdx.toNat = 0) &&
    decide (s.tempCtr.toNat ≤ 49) && (decide (s.tempCtr.toNat < 45) || (s.pins.tmpValid && !s.pins.tmpErr)) &&
    decide (s.off = { x := s.pins.accX.signExtend 32, y := s.pins.accY.signExtend 32, z := s.pins.accZ.signExtend 32 })

/-- No temperature read, one at the fifth tick, one at the first. -/
theorem witness_SamplesAtTheOffsetsGiveTheZeroPacket :
    atTheOffsets (scenario 44) ∧ atTheOffsets (scenario 45) ∧ atTheOffsets (scenario 49) := by decide

theorem witness_StepKeepsTheInvariant : (tickReady false 4).Inv ∧ ∃ t, step (tickReady false 4) = .next t :=
  ⟨tickReady_inv false 4 (by decide), _, rfl⟩

theorem witness_StepNeverStopsUnderTheInvariant : (tickReady true 0).Inv := tickReady_inv true 0 (by decide)

/-- Sending, with everything written but `current_temp` and the buffers' slots. -/
def wroteMost (idx : BitVec 7) (p : Pins) : State :=
  { sending idx p with
    written :=
      { straps := true, delayStart := true, calibTemp := true, sums := true, offsets := true, currentTemp := false
        window := true, lastTick := true, raw := true, slots := Vector.replicate 5 false, pkt := true } }

theorem wroteMost_writtenInv (idx : BitVec 7) (p : Pins) : (wroteMost idx p).WrittenInv where
  straps := fun _ _ => rfl
  delayStart := fun _ => rfl
  calibrating := fun _ => ⟨rfl, rfl⟩
  sampling := fun _ => ⟨rfl, rfl, rfl⟩
  raw := fun _ => rfl
  slots := fun _ k _ hk => absurd hk (Nat.not_lt_zero k)
  full := by intro h; cases h
  pkt := fun _ => rfl

theorem witness_StepKeepsRegistersWrittenBeforeRead : (wroteMost 65 (pinsNow 0)).WrittenInv ∧
    ∃ t, step (wroteMost 65 (pinsNow 0)) = .next t := ⟨wroteMost_writtenInv _ _, _, rfl⟩

/-- A state that differs from `wroteMost` in a register that is not written. -/
def otherTemp : State := { wroteMost 65 (pinsNow 0) with currentTemp := 0x41C80000 }

theorem witness_UnwrittenValuesNeverMatter : (wroteMost 65 (pinsNow 0)).WrittenInv ∧
    AgreeWritten (wroteMost 65 (pinsNow 0)) otherTemp ∧ (wroteMost 65 (pinsNow 0)).currentTemp ≠ otherTemp.currentTemp := by
  refine ⟨wroteMost_writtenInv _ _, ?_, by decide⟩
  constructor <;> (first | rfl | exact fun _ => rfl | exact fun _ => ⟨rfl, rfl⟩ | exact fun _ _ _ => ⟨rfl, rfl, rfl⟩ | skip)
  intro h
  cases h

theorem witness_FilterStaysBounded : (tickReady true 4).Inv ∧ (tickReady true 4).FilterBounded ∧
    ∃ t, step (tickReady true 4) = .next t := by
  refine ⟨tickReady_inv true 4 (by decide), ⟨?_, ?_⟩, _, rfl⟩
  · unfold FiniteWithin
    decide
  · intro _ _ k hk _
    simp [SlotSatisfies, tickReady]

theorem witness_FilterStaysAtResetWhileIdle : (inCtl .calDone silent).FilterIdle ∧
    ∃ t, step (inCtl .calDone silent) = .next t := ⟨fun _ => ⟨rfl, rfl⟩, _, rfl⟩

/-- The last byte is next and the other 65 stand on the trace. -/
def lastByte : State :=
  { sending 65 (pinsNow 0) with
    trace := .now 7 :: ((encodePacket build thirdFields.z thirdFields.e thirdFields.n).toList.take 65).map Event.tx }

theorem witness_PacketBytesAreConsecutiveOnTheWire : lastByte.PacketOnWire ∧ lastByte.ctl = .tx ∧
    ∃ t, step lastByte = .next t ∧ t.ctl = .poll :=
  ⟨fun _ => ⟨[.now 7], rfl⟩, rfl, _, rfl, by decide⟩

end Sys2Proof.Tests
end

