-- ==== Sys2Proof/Proofs/PacketLayout.lean ====
section
/-! The packet's layout (30_encoding.md R91): where the header, the three axis fields, the checksums and the reserved byte
stand in the list of R184. -/

namespace Sys2Proof.Machine

/-! ## Bytes of an integer and of an axis (44_encoder.md R180, R183) -/

theorem leBytes_getElem? (v : I32) (j : Nat) (hj : j < 4) :
    (leBytes v)[j]? = some (v.extractLsb' (8 * j) 8) := by
  match j, hj with
  | 0, _ | 1, _ | 2, _ | 3, _ => rfl

theorem flatMap_leBytes_getElem? (l : List I32) (k j : Nat) (hk : k < l.length) (hj : j < 4) :
    (l.flatMap leBytes)[4 * k + j]? = some (l[k].extractLsb' (8 * j) 8) := by
  induction l generalizing k with
  | nil => cases hk
  | cons v l ih =>
    rw [List.flatMap_cons]
    cases k with
    | zero =>
      rw [Nat.mul_zero, Nat.zero_add, List.getElem?_append_left hj]
      exact leBytes_getElem? v j hj
    | succ k =>
      have hidx : 4 * (k + 1) + j - (leBytes v).length = 4 * k + j := by rw [leBytes_length]; omega
      rw [List.getElem?_append_right (by rw [leBytes_length]; omega), hidx]
      exact ih k (Nat.lt_of_succ_lt_succ hk)

theorem axisBytes_getElem? (a : Samples) (k j : Nat) (hk : k < 5) (hj : j < 4) :
    (axisBytes a)[4 * k + j]? = some ((a[k]'hk).extractLsb' (8 * j) 8) :=
  flatMap_leBytes_getElem? a.toList k j (by simpa using hk) hj

/-! ## Fields of a packet -/

/-- The 20 bytes of `p` from `base` on are those of the axis `a` (30_encoding.md R91). -/
def AxisFieldAt (p : List Byte) (base : Nat) (a : Samples) : Prop :=
  (p.drop base).take 20 = axisBytes a

theorem AxisFieldAt.of_append {pre post : List Byte} {base : Nat} {a : Samples} (h : pre.length = base) :
    AxisFieldAt (pre ++ axisBytes a ++ post) base a := by
  rw [AxisFieldAt, List.append_assoc, List.drop_left' h, List.take_left' (axisBytes_length a)]

/-- Byte `j` of sample `k` stands at `base + 4k + j` (R91). -/
theorem AxisFieldAt.getD {p : List Byte} {base : Nat} {a : Samples} (h : AxisFieldAt p base a)
    (k j : Nat) (hk : k < 5) (hj : j < 4) :
    p.getD (base + 4 * k + j) 0 = (a[k]'hk).extractLsb' (8 * j) 8 := by
  have hfield : ((p.drop base).take 20)[4 * k + j]? = some ((a[k]'hk).extractLsb' (8 * j) 8) := by
    rw [h]
    exact axisBytes_getElem? a k j hk hj
  rw [List.getElem?_take_of_lt (by omega), List.getElem?_drop, ← Nat.add_assoc] at hfield
  rw [List.getD_eq_getElem?_getD, hfield, Option.getD_some]

/-- The checksum of an axis is the exclusive or of the packet's own bytes of that axis (R181). -/
theorem AxisFieldAt.checksum_eq {p : List Byte} {base : Nat} {a : Samples} (h : AxisFieldAt p base a) :
    checksum a = ((p.drop base).take 20).foldl (· ^^^ ·) 0 := by
  rw [h, checksum]

section
variable (c : Config) (z e n : Samples) (ckz cke ckn : Byte)

theorem packetBytes_zenithField : AxisFieldAt (packetBytes c z e n ckz cke ckn) 2 z := by
  rw [packetBytes, List.append_assoc, List.append_assoc]
  exact .of_append rfl

theorem packetBytes_eastField : AxisFieldAt (packetBytes c z e n ckz cke ckn) 22 e := by
  rw [packetBytes, List.append_assoc]
  exact .of_append (by simp [axisBytes_length])

theorem packetBytes_northField : AxisFieldAt (packetBytes c z e n ckz cke ckn) 42 n :=
  .of_append (by simp [axisBytes_length])

theorem packetBytes_trailer :
    (packetBytes c z e n ckz cke ckn).drop 62 = [ckz, cke, ckn, c.reservedByte] :=
  List.drop_left' (by simp [axisBytes_length])

/-- Byte `i` of the trailer, the four bytes after the axis fields, stands at `62 + i`. -/
theorem packetBytes_getD_trailer (i : Nat) :
    (packetBytes c z e n ckz cke ckn).getD (62 + i) 0 = [ckz, cke, ckn, c.reservedByte].getD i 0 := by
  rw [← packetBytes_trailer c z e n ckz cke ckn]
  simp only [List.getD_eq_getElem?_getD, List.getElem?_drop]

end

/-- Settles O32: each axis is one field of the packet's list, which gives both its samples' bytes and its checksum; the
header and the trailer stand around the three fields. -/
theorem packetLayoutByteByByte : Obligations.PacketLayoutByteByByte := by
  unfold Obligations.PacketLayoutByteByByte
  intro z e n p hp
  rw [encodePacket_toList] at hp
  subst hp
  have hz := packetBytes_zenithField build z e n (checksum z) (checksum e) (checksum n)
  have he := packetBytes_eastField build z e n (checksum z) (checksum e) (checksum n)
  have hn := packetBytes_northField build z e n (checksum z) (checksum e) (checksum n)
  have htrailer := packetBytes_getD_trailer build z e n (checksum z) (checksum e) (checksum n)
  refine ⟨packetBytes_length .., rfl, rfl, ?samples, ?ckz, ?cke, ?ckn, htrailer 3⟩
  case samples =>
    intro k j hk hj
    exact ⟨hz.getD k j hk hj, he.getD k j hk hj, hn.getD k j hk hj⟩
  case ckz => exact (htrailer 0).trans hz.checksum_eq
  case cke => exact (htrailer 1).trans he.checksum_eq
  case ckn => exact (htrailer 2).trans hn.checksum_eq

end Sys2Proof.Machine
end

/-! The bias calibrator (41_calibrator.md): the truncated quotient of R120, the quiescence gate of R123, and the
operations `CAL_TEMP`, `CAL_WAIT` and `CAL_FINISH` (R126, R128, R129). -/

namespace Sys2Proof.Machine

/-! ## The truncated quotient (41_calibrator.md R120, R121) -/

theorem truncDiv_of_nonneg {a : Int} (b : Int) (ha : 0 ≤ a) : truncDiv a b = a / b := if_pos ha

theorem truncDiv_of_neg {a : Int} (b : Int) (ha : a < 0) : truncDiv a b = -(-a / b) := if_neg (Int.not_le.mpr ha)

theorem truncDiv_eq_tdiv (a b : Int) : truncDiv a b = a.tdiv b := by
  rcases lt_or_ge a 0 with ha | ha
  · rw [truncDiv_of_neg b ha, ← Int.tdiv_eq_ediv_of_nonneg (by omega), Int.neg_tdiv, Int.neg_neg]
  · rw [truncDiv_of_nonneg b ha, Int.tdiv_eq_ediv_of_nonneg ha]

/-- `r` is the remainder R120 allows for the dividend `a` and the divisor `b`: smaller than `b` in magnitude, and zero or
of the sign of `a`. -/
def TruncRemainder (a b r : Int) : Prop :=
  |r| < b ∧ (r = 0 ∨ (0 < r ∧ 0 < a) ∨ (r < 0 ∧ a < 0))

theorem truncRemainder_neg (a b r : Int) : TruncRemainder (-a) b (-r) ↔ TruncRemainder a b r := by
  simp only [TruncRemainder, abs_neg]
  omega

/-- For a dividend that is not negative the truncated quotient is the floor, whose remainder is at most the dividend. -/
theorem ediv_eq_iff_truncRemainder {a b : Int} (q : Int) (ha : 0 ≤ a) (hb : 0 < b) :
    a / b = q ↔ TruncRemainder a b (a - q * b) := by
  constructor
  · intro h
    have hqb : 0 ≤ q * b := Int.mul_nonneg (h ▸ Int.ediv_nonneg ha hb.le) hb.le
    obtain ⟨hle, hlt⟩ := (Int.ediv_eq_iff_of_pos hb).mp h
    rw [TruncRemainder, abs_lt]
    omega
  · intro h
    obtain ⟨hlt, hsign⟩ := h
    rw [abs_lt] at hlt
    rw [Int.ediv_eq_iff_of_pos hb]
    omega

theorem truncDiv_eq_iff {a b : Int} (q : Int) (hb : 0 < b) :
    truncDiv a b = q ↔ TruncRemainder a b (a - q * b) := by
  rcases lt_or_ge a 0 with ha | ha
  · have hr : -a - -q * b = -(a - q * b) := by ring
    calc truncDiv a b = q ↔ -a / b = -q := by rw [truncDiv_of_neg b ha]; omega
      _ ↔ TruncRemainder (-a) b (-a - -q * b) := ediv_eq_iff_truncRemainder (-q) (by omega) hb
      _ ↔ TruncRemainder a b (a - q * b) := by rw [hr, truncRemainder_neg]
  · rw [truncDiv_of_nonneg b ha]
    exact ediv_eq_iff_truncRemainder q ha hb

/-- Settles O35: a dividend below zero is the mirror image of one above, where the quotient is the floor. -/
theorem truncDivIsTheTruncatedQuotient : Obligations.TruncDivIsTheTruncatedQuotient := by
  unfold Obligations.TruncDivIsTheTruncatedQuotient
  intro a b q hb
  exact truncDiv_eq_iff q hb

theorem calMean_build (v : I32) : calMean build v = BitVec.ofInt 32 (v.toInt.tdiv 200) := by
  rw [calMean, truncDiv_eq_tdiv, build_calibrationSamples, Nat.cast_ofNat]

/-! ## Selection and elapsed time (30_encoding.md R104, 43_scheduler.md R161) -/

/-- The operation of a control state's code is what a step there executes. -/
theorem selectedBy_of_operation {c : Ctl} {i : Instr} (h : c.operation = some i) : SelectedBy c i := by
  intro s hc hr
  exact step_of_operation hr (hc ▸ h)

theorem elapsed_toNat (start t : U32) : (elapsed start t).toNat = usSince start t := by
  have hs := start.isLt
  rw [elapsed, BitVec.toNat_sub, usSince]
  congr 1
  omega

theorem delayOver_iff (d : Nat) (start t : U32) : delayOver d start t = true ↔ d ≤ usSince start t := by
  rw [delayOver, decide_eq_true_iff, elapsed_toNat]

theorem ite_delayOver {α : Type} (d : Nat) (start t : U32) (x y : α) :
    (if delayOver d start t then x else y) = if d ≤ usSince start t then x else y :=
  if_congr (delayOver_iff d start t) rfl rfl

/-! ## `CAL_TEMP` (R126) -/

section
variable {n : Nat} (r : Registers n) {p : Pins}

theorem calTempEffect_of_read (hv : p.tmpValid = true) (he : p.tmpErr = false) :
    calTempEffect r p =
      { regs :=
          { r with
            calibTemp := p.tmpData
            sum := { x := 0, y := 0, z := 0 }
            calCount := 0
            ctl := .calRead
            written := { r.written with calibTemp := true, sums := true } }
        events := [.temp p.tmpData false] } := by
  simp [calTempEffect, tempEvent, hv, he]

theorem calTempEffect_of_error (hv : p.tmpValid = true) (he : p.tmpErr = true) :
    calTempEffect r p = r.raiseFatal .calTempErr [.temp p.tmpData true] := by
  simp [calTempEffect, tempEvent, hv, he]

theorem calTempEffect_of_unanswered (hv : p.tmpValid = false) : calTempEffect r p = r.hold := by
  simp [calTempEffect, hv]

end

theorem exec_calTemp (s : State) : exec .calTemp s = .next (s.apply (calTempEffect s.toRegisters s.pins)) :=
  exec_eq_operate .calTemp s

/-- Settles O3: the three answers the temperature port can give. -/
theorem calTempStoresReferenceAndClearsSums : Obligations.CalTempStoresReferenceAndClearsSums := by
  unfold Obligations.CalTempStoresReferenceAndClearsSums
  refine ⟨selectedBy_of_operation rfl, fun s => ⟨?read, ?error, ?unanswered⟩⟩
  case read =>
    intro hv he
    rw [exec_calTemp, calTempEffect_of_read _ hv he]
    rfl
  case error =>
    intro hv he
    rw [exec_calTemp, calTempEffect_of_error _ hv he]
    rfl
  case unanswered =>
    intro hv
    rw [exec_calTemp, calTempEffect_of_unanswered _ hv, apply_hold]

/-! ## `CAL_WAIT` (R128) -/

theorem exec_calWait (s : State) : exec .calWait s = .next (s.apply (calWaitEffect build s.toRegisters s.pins)) :=
  exec_eq_operate .calWait s

/-- Settles O5: the delay test is the comparison of `usSince`, for the built `CAL_DELAY_US`. -/
theorem calWaitPollsTheIntersampleDelay : Obligations.CalWaitPollsTheIntersampleDelay := by
  unfold Obligations.CalWaitPollsTheIntersampleDelay
  refine ⟨selectedBy_of_operation rfl, fun s => ?_⟩
  rw [exec_calWait, calWaitEffect, ite_delayOver]
  rfl

/-! ## `CAL_FINISH` (R129) -/

theorem exec_calFinish (s : State) : exec .calFinish s = .next (s.apply (calFinishEffect build s.toRegisters s.pins)) :=
  exec_eq_operate .calFinish s

/-- Settles O6: each offset is `calMean` of its sum, the built mean over 200 samples. -/
theorem calFinishSetsOffsetsAndSeedsTheClock : Obligations.CalFinishSetsOffsetsAndSeedsTheClock := by
  unfold Obligations.CalFinishSetsOffsetsAndSeedsTheClock
  refine ⟨selectedBy_of_operation rfl, fun s => ?_⟩
  rw [exec_calFinish]
  simp only [calFinishEffect, calMean_build]
  rfl

/-! ## The quiescence gate (R123) -/

theorem stillAxis_build_iff (v : I32) : stillAxis build v = true ↔ |v.toInt| < 1000 := by
  rw [stillAxis, decide_eq_true_iff, build_stillThreshold, abs_lt]
  omega

/-- Settles O37: the gate is the conjunction of the three axes' own tests. -/
theorem stillnessIsStrictAndPerAxis : Obligations.StillnessIsStrictAndPerAxis := by
  unfold Obligations.StillnessIsStrictAndPerAxis
  intro v
  simp only [still, Bool.and_eq_true, stillAxis_build_iff, and_assoc]

end Sys2Proof.Machine

/-! The default binary32 arithmetic of the high-pass filter (42_highpass.md): the classes of a pattern and its value
(R142), and the conversion `f2i` (R146). -/

namespace Sys2Proof.Machine

/-! ## The classes of a pattern and its value (R142) -/

theorem isNan_of_isFinite {f : F32} (h : isFinite f = true) : isNan f = false := by
  simp_all [isFinite, isNan]

theorem isInf_of_isFinite {f : F32} (h : isFinite f = true) : isInf f = false := by
  simp_all [isFinite, isInf]

theorem isNan_of_isInf {f : F32} (h : isInf f = true) : isNan f = false := by
  simp_all [isInf, isNan]

theorem value_of_msb {f : F32} (hs : f.msb = true) : value f = -(magnitude f : Int) := if_pos hs

theorem value_of_not_msb {f : F32} (hs : f.msb = false) : value f = magnitude f :=
  if_neg (Bool.eq_false_iff.mp hs)

/-! ## The conversion to an integer (R146) -/

theorem f2i_of_isNan {f : F32} (h : isNan f = true) : f2i f = 0 := if_pos h

theorem f2i_of_isInf {f : F32} (h : isInf f = true) : f2i f = if f.msb then 0x80000000 else 0x7FFFFFFF := by
  rw [f2i, isNan_of_isInf h, h]
  rfl

section
variable {f : F32}

theorem f2i_of_isFinite_of_msb (h : isFinite f = true) (hs : f.msb = true) :
    f2i f = if 2 ^ 31 * 2 ^ 149 < magnitude f then 0x80000000
      else BitVec.ofInt 32 (-(magnitude f / 2 ^ 149 : Nat)) := by
  rw [f2i, isNan_of_isFinite h, isInf_of_isFinite h, hs]
  rfl

theorem f2i_of_isFinite_of_not_msb (h : isFinite f = true) (hs : f.msb = false) :
    f2i f = if 2 ^ 31 * 2 ^ 149 ≤ magnitude f then 0x7FFFFFFF
      else BitVec.ofInt 32 (magnitude f / 2 ^ 149 : Nat) := by
  rw [f2i, isNan_of_isFinite h, isInf_of_isFinite h, hs]
  rfl

theorem value_tdiv_of_msb (hs : f.msb = true) : (value f).tdiv (2 ^ 149) = -(magnitude f / 2 ^ 149 : Nat) := by
  rw [value_of_msb hs, Int.neg_tdiv, Int.tdiv_eq_ediv_of_nonneg (Int.natCast_nonneg _)]
  rfl

theorem value_tdiv_of_not_msb (hs : f.msb = false) : (value f).tdiv (2 ^ 149) = (magnitude f / 2 ^ 149 : Nat) := by
  rw [value_of_not_msb hs, Int.tdiv_eq_ediv_of_nonneg (Int.natCast_nonneg _)]
  rfl

/-- What `f2i` gives on every finite pattern, by its value alone: on either sign the magnitude's test is the value's,
and a quotient that passes it fits in 32 bits. -/
theorem f2i_toInt_of_isFinite (h : isFinite f = true) :
    (f2i f).toInt =
      if value f < -(2 ^ 31 * 2 ^ 149) then -2147483648
      else if 2 ^ 31 * 2 ^ 149 ≤ value f then 2147483647
      else (value f).tdiv (2 ^ 149) := by
  cases hs : f.msb with
  | true =>
    rw [f2i_of_isFinite_of_msb h hs, value_tdiv_of_msb hs, value_of_msb hs]
    by_cases hm : 2 ^ 31 * 2 ^ 149 < magnitude f
    · rw [if_pos hm, if_pos (by omega)]
      rfl
    · rw [if_neg hm, if_neg (by omega), if_neg (by omega)]
      exact BitVec.toInt_ofInt_eq_self (by decide) (by omega) (by omega)
  | false =>
    rw [f2i_of_isFinite_of_not_msb h hs, value_tdiv_of_not_msb hs, value_of_not_msb hs]
    by_cases hm : 2 ^ 31 * 2 ^ 149 ≤ magnitude f
    · rw [if_pos hm, if_neg (by omega), if_pos (by omega)]
      rfl
    · rw [if_neg hm, if_neg (by omega), if_neg (by omega)]
      exact BitVec.toInt_ofInt_eq_self (by decide) (by omega) (by omega)

end

/-- Settles O46: each finite range is a branch of `f2i_toInt_of_isFinite`. -/
theorem floatToIntegerTruncatesAndSaturates : Obligations.FloatToIntegerTruncatesAndSaturates := by
  unfold Obligations.FloatToIntegerTruncatesAndSaturates
  refine fun f => ⟨?truncates, ?above, ?below, f2i_of_isNan⟩
  case truncates =>
    intro h hlo hhi
    rw [f2i_toInt_of_isFinite h, if_neg (Int.not_lt.mpr hlo), if_neg (Int.not_le.mpr hhi)]
  case above =>
    rintro (⟨h, hv⟩ | ⟨h, hs⟩)
    · rw [f2i_toInt_of_isFinite h, if_neg (by omega), if_pos hv]
    · rw [f2i_of_isInf h, hs]
      rfl
  case below =>
    rintro (⟨h, hv⟩ | ⟨h, hs⟩)
    · rw [f2i_toInt_of_isFinite h, if_pos hv]
    · rw [f2i_of_isInf h, hs]
      rfl

end Sys2Proof.Machine

/-! The sample scheduler (43_scheduler.md): elapsed time across a wrap of the clock (R161), and the operations `POLL` and
`T_ACC` (R163, R164). -/

namespace Sys2Proof.Machine

/-! ## Elapsed time between true times (R161) -/

/-- The common part of the two true times cancels, so the wraps before `a` leave no trace in the difference. -/
theorem elapsed_ofNat {a b : Nat} (hab : a ≤ b) :
    elapsed (BitVec.ofNat 32 a) (BitVec.ofNat 32 b) = BitVec.ofNat 32 (b - a) := by
  obtain ⟨d, rfl⟩ := Nat.exists_eq_add_of_le hab
  rw [elapsed, BitVec.ofNat_add, Nat.add_sub_cancel_left, BitVec.add_comm, BitVec.add_sub_cancel]

theorem elapsed_ofNat_toNat {a b : Nat} (hab : a ≤ b) :
    (elapsed (BitVec.ofNat 32 a) (BitVec.ofNat 32 b)).toNat = (b - a) % 2 ^ 32 := by
  rw [elapsed_ofNat hab, BitVec.toNat_ofNat]

/-- Settles O40: a difference below `2^32` is its own remainder. -/
theorem elapsedIsExactAcrossAWrap : Obligations.ElapsedIsExactAcrossAWrap := by
  unfold Obligations.ElapsedIsExactAcrossAWrap
  refine ⟨elapsed_toNat, fun a b hab => ⟨elapsed_ofNat_toNat hab, fun hlt => ?_⟩⟩
  rw [elapsed_ofNat_toNat hab, Nat.mod_eq_of_lt hlt]

/-! ## `POLL` (R163) -/

theorem due_build_iff (last t : U32) : due build last t = true ↔ 20000 ≤ usSince last t := by
  rw [due, decide_eq_true_iff, elapsed_toNat, build_interval]

section
variable {c : Config} {r : Registers c.windowN} {p : Pins}

theorem pollEffect_of_due (h : due c r.lastTick p.now = true) :
    pollEffect c r p =
      { regs := { r with lastTick := r.lastTick + BitVec.ofNat 32 c.interval, ctl := .tickAcc }
        events := [.now p.now] } := by
  rw [pollEffect, if_pos h]

theorem pollEffect_of_not_due (h : ¬ due c r.lastTick p.now = true) :
    pollEffect c r p = { regs := r, events := [.now p.now] } := by
  rw [pollEffect, if_neg h]

end

theorem exec_poll (s : State) : exec .poll s = .next (s.apply (pollEffect build s.toRegisters s.pins)) :=
  exec_eq_operate .poll s

/-- Settles O7: the built due test splits at 20000, and the sum of R163 is the 32-bit one. -/
theorem pollFiresAdditively : Obligations.PollFiresAdditively := by
  unfold Obligations.PollFiresAdditively
  refine ⟨selectedBy_of_operation rfl, fun s => ⟨?fires, ?idles⟩⟩
  case fires =>
    intro h
    rw [exec_poll, pollEffect_of_due ((due_build_iff ..).mpr h), build_interval, BitVec.ofNat_add,
      BitVec.ofNat_toNat, BitVec.setWidth_eq]
    rfl
  case idles =>
    intro h
    rw [exec_poll, pollEffect_of_not_due (mt (due_build_iff ..).mp (Nat.not_le.mpr h))]
    rfl

/-! ## `T_ACC` (R164) -/

section
variable {n : Nat} (r : Registers n) {p : Pins}

theorem tAccEffect_of_read (hv : p.accValid = true) (he : p.accErr = false) :
    tAccEffect r p =
      { regs :=
          { r with
            raw := { x := p.accX, y := p.accY, z := p.accZ }
            ctl := .tickTemp
            written := { r.written with raw := true } }
        events := [.acc p.accX p.accY p.accZ false] } := by
  simp [tAccEffect, accEvent, hv, he]

theorem tAccEffect_of_error (hv : p.accValid = true) (he : p.accErr = true) :
    tAccEffect r p = r.raiseFatal .tickAccErr [.acc p.accX p.accY p.accZ true] := by
  simp [tAccEffect, accEvent, hv, he]

theorem tAccEffect_of_unanswered (hv : p.accValid = false) : tAccEffect r p = r.hold := by
  simp [tAccEffect, hv]

end

theorem exec_tAcc (s : State) : exec .tAcc s = .next (s.apply (tAccEffect s.toRegisters s.pins)) :=
  exec_eq_operate .tAcc s

/-- Settles O8: the three answers the acceleration port can give. -/
theorem tAccStoresOneReading : Obligations.TAccStoresOneReading := by
  unfold Obligations.TAccStoresOneReading
  refine ⟨selectedBy_of_operation rfl, fun s => ⟨?read, ?error, ?unanswered⟩⟩
  case read =>
    intro hv he
    rw [exec_tAcc, tAccEffect_of_read _ hv he]
    rfl
  case error =>
    intro hv he
    rw [exec_tAcc, tAccEffect_of_error _ hv he]
    rfl
  case unanswered =>
    intro hv
    rw [exec_tAcc, tAccEffect_of_unanswered _ hv, apply_hold]

end Sys2Proof.Machine

/-! The packet encoder (44_encoder.md): the bits of a serialised integer (R180), and the operations `ENCODE` and
`TX_BYTE` (R186, R187). -/

namespace Sys2Proof.Machine

/-! ## The bits of a serialised integer (R180) -/

theorem leBytes_getD (v : I32) (j : Nat) (hj : j < 4) : (leBytes v).getD j 0 = v.extractLsb' (8 * j) 8 := by
  rw [List.getD_eq_getElem?_getD, leBytes_getElem? v j hj, Option.getD_some]

/-- Settles O31: byte `i / 8` is the slice that starts at bit `8 * (i / 8)`, and bit `i` is `i % 8` above that. -/
theorem integerBytesAreLittleEndian : Obligations.IntegerBytesAreLittleEndian := by
  unfold Obligations.IntegerBytesAreLittleEndian
  intro v i hi
  refine ⟨leBytes_length v, ?_⟩
  have hbyte : i / 8 < 4 := by omega
  have hbit : i % 8 < 8 := Nat.mod_lt i (by decide)
  rw [leBytes_getD v _ hbyte, BitVec.getLsbD_extractLsb', Nat.div_add_mod, decide_eq_true hbit, Bool.true_and]

/-! ## `ENCODE` (R186) -/

/-- An effect without events leaves the trace as it is. -/
theorem apply_of_no_events (s : State) (r : Registers build.windowN) :
    s.apply { regs := r, events := [] } = { s with toRegisters := r } := by
  simp [State.apply]

theorem encodePacket_build_toList (z e n : Samples) :
    (encodePacket build z e n).toList = [0xFC, 0x1B] ++ axisBytes z ++ axisBytes e ++ axisBytes n
      ++ [checksum z, checksum e, checksum n, 0x00] := by
  rw [encodePacket_toList, packetBytes, build_header0, build_header1, build_reservedByte]

theorem exec_encode (s : State) : exec .encode s = .next (s.apply (encodeEffect build s.toRegisters)) :=
  exec_eq_operate .encode s

/-- Settles O11: the packet is `encodePacket` of the three buffers, whose bytes are those of R184. -/
theorem encodeBuildsThePacket : Obligations.EncodeBuildsThePacket := by
  unfold Obligations.EncodeBuildsThePacket
  refine ⟨selectedBy_of_operation rfl, fun s => ⟨encodePacket build s.buf.z s.buf.e s.buf.n, ?bytes, ?next⟩⟩
  case bytes => exact encodePacket_build_toList ..
  case next =>
    rw [exec_encode, encodeEffect, apply_of_no_events]
    rfl

/-! ## `TX_BYTE` (R187) -/

section
variable {r : Registers build.windowN} {p : Pins}

theorem sendByte_of_before_last (b : Byte) (hready : p.txReady = true) (hidx : r.txIdx.toNat < 65) :
    sendByte build r p b =
      { regs := { r with txIdx := BitVec.ofNat 7 (r.txIdx.toNat + 1) }, events := [.tx b] } := by
  have hlast : r.txIdx.toNat ≠ build.packetLen - 1 := Nat.ne_of_lt hidx
  rw [sendByte, if_pos hready, if_neg hlast, BitVec.ofNat_add, BitVec.ofNat_toNat, BitVec.setWidth_eq]
  rfl

theorem sendByte_of_last (b : Byte) (hready : p.txReady = true) (hidx : r.txIdx.toNat = 65) :
    sendByte build r p b = { regs := { r with ctl := .poll }, events := [.tx b] } := by
  have hlast : r.txIdx.toNat = build.packetLen - 1 := hidx
  rw [sendByte, if_pos hready, if_pos hlast]

theorem sendByte_of_not_ready (b : Byte) (hready : p.txReady = false) : sendByte build r p b = r.hold :=
  if_neg (Bool.eq_false_iff.mp hready)

end

/-- A `TX_BYTE` whose index is one of the packet's sends the byte that stands there. -/
theorem exec_txByte (s : State) (h : s.txIdx.toNat < 66) :
    exec .txByte s = .next (s.apply (sendByte build s.toRegisters s.pins (s.pkt[s.txIdx.toNat]'h))) := by
  have heffect : txByteEffect build s.toRegisters s.pins =
      .next (sendByte build s.toRegisters s.pins (s.pkt[s.txIdx.toNat]'h)) := dif_pos h
  rw [exec_eq_operate, operate, heffect, State.run_next]

/-- Settles O12: the three things `sendByte` can do with the byte at `tx_idx`. -/
theorem txByteSendsTheNextByte : Obligations.TxByteSendsTheNextByte := by
  unfold Obligations.TxByteSendsTheNextByte
  refine ⟨selectedBy_of_operation rfl, fun s h => ⟨?advances, ?finishes, ?waits⟩⟩
  case advances =>
    intro hready hidx
    rw [exec_txByte s h, sendByte_of_before_last _ hready hidx]
    rfl
  case finishes =>
    intro hready hidx
    rw [exec_txByte s h, sendByte_of_last _ hready hidx]
    rfl
  case waits =>
    intro hready
    rw [exec_txByte s h, sendByte_of_not_ready _ hready, apply_hold]

end Sys2Proof.Machine

/-! The orchestrator's lifecycle (45_orchestrator.md): the operations `INIT` and `WARMUP_WAIT` (R200, R201). -/

namespace Sys2Proof.Machine

/-! ## `INIT` (R200) -/

section
variable {n : Nat} (r : Registers n) {p : Pins}

theorem initEffect_of_ack (h : p.initAck = true) :
    initEffect r p =
      { regs :=
          { r with
            cfgHpf := p.cfgHpf
            cfgDyn := p.cfgDyn
            delayStart := p.now
            ctl := .warmup
            written := { r.written with straps := true, delayStart := true } }
        events := [.envInit, .now p.now] } :=
  if_pos h

theorem initEffect_of_no_ack (h : p.initAck = false) : initEffect r p = r.hold :=
  if_neg (Bool.eq_false_iff.mp h)

end

theorem exec_init (s : State) : exec .init s = .next (s.apply (initEffect s.toRegisters s.pins)) :=
  exec_eq_operate .init s

/-- Settles O1: the environment has acknowledged its initialisation, or `INIT` holds. -/
theorem initLatchesStrapsAndStartsWarmup : Obligations.InitLatchesStrapsAndStartsWarmup := by
  unfold Obligations.InitLatchesStrapsAndStartsWarmup
  refine ⟨selectedBy_of_operation rfl, fun s => ⟨?acknowledged, ?waits⟩⟩
  case acknowledged =>
    intro hack
    rw [exec_init, initEffect_of_ack _ hack]
    rfl
  case waits =>
    intro hack
    rw [exec_init, initEffect_of_no_ack _ hack, apply_hold]

/-! ## `WARMUP_WAIT` (R201) -/

theorem exec_warmupWait (s : State) :
    exec .warmupWait s = .next (s.apply (warmupWaitEffect build s.toRegisters s.pins)) :=
  exec_eq_operate .warmupWait s

/-- Settles O2: the delay test is the comparison of `usSince`, for the built `WARMUP_US`. -/
theorem warmupWaitPollsTheDelay : Obligations.WarmupWaitPollsTheDelay := by
  unfold Obligations.WarmupWaitPollsTheDelay
  refine ⟨selectedBy_of_operation rfl, fun s => ?_⟩
  rw [exec_warmupWait, warmupWaitEffect, ite_delayOver]
  rfl

end Sys2Proof.Machine

/-! Reset (70_reset_and_hazards.md): what one edge with `rst` high leaves (R250), and runs that stay in reset (R252). -/

namespace Sys2Proof.Machine

/-! ## One edge of reset (R250) -/

theorem exec_reset (s : State) : exec .reset s = .next { s with toRegisters := Registers.reset build } := by
  rw [exec_eq_operate, operate, State.run_next, resetEffect, apply_of_no_events]

/-- `RESET` changes nothing in a state that already holds the reset values. -/
theorem exec_reset_of_reset {s : State} (h : s.toRegisters = Registers.reset build) : exec .reset s = .next s := by
  rw [exec_reset, ← h]

/-- `rst` wins over whatever `ctl` selects (60_exceptions.md R227). -/
theorem step_of_rst {s : State} (h : s.pins.rst = true) : step s = afterEdge (exec .reset s) := by
  rw [step, selection_of_rst h]
  rfl

/-- No output is high in the reset state while `rst` is. -/
theorem Registers.reset_outPins (c : Config) :
    (Registers.reset c).outPins c true =
      { initReq := false, accReq := false, tmpReq := false, txValid := false, txData := none, fatal := false } := rfl

/-- Settles O13: each value is a field of `Registers.reset`, and the outputs depend on the registers alone. -/
theorem resetLeavesTheResetValues : Obligations.ResetLeavesTheResetValues := by
  unfold Obligations.ResetLeavesTheResetValues
  refine ⟨fun s => step_of_rst, fun s => ⟨{ s with toRegisters := Registers.reset build }, exec_reset s, ?values⟩⟩
  case values =>
    exact ⟨rfl, rfl, rfl, rfl, rfl, rfl, rfl, rfl, rfl, Registers.reset_outPins build, rfl, rfl, rfl⟩

/-! ## Runs that stay in reset (R252) -/

/-- The state one edge with `rst` high leads to. -/
def State.resetEdge (s : State) : State := State.nextEdge { s with toRegisters := Registers.reset build }

@[simp] theorem State.resetEdge_toRegisters (s : State) : s.resetEdge.toRegisters = Registers.reset build := rfl
@[simp] theorem State.resetEdge_trace (s : State) : s.resetEdge.trace = s.trace := rfl

@[simp] theorem pinsAt_resetEdge (s : State) (k : Nat) : s.resetEdge.pinsAt k = s.pinsAt (k + 1) :=
  pinsAt_nextEdge { s with toRegisters := Registers.reset build } k

theorem steps_succ_of_rst {s : State} (h : (s.pinsAt 0).rst = true) (k : Nat) :
    steps (k + 1) s = steps k s.resetEdge := by
  rw [← pins_eq_pinsAt_zero] at h
  rw [steps, step_of_rst h, exec_reset]
  rfl

/-- A run with `rst` high at all its edges ends in the reset values, at the environment's next edge, with no new event. -/
theorem steps_of_rst {n : Nat} {s : State} (h : ∀ k, k < n + 1 → (s.pinsAt k).rst = true) :
    ∃ t : State, steps (n + 1) s = .next t ∧ t.toRegisters = Registers.reset build ∧ t.trace = s.trace ∧
      t.pins = s.pinsAt (n + 1) := by
  rw [steps_succ_of_rst (h 0 (Nat.zero_lt_succ n))]
  induction n generalizing s with
  | zero =>
    exact ⟨s.resetEdge, rfl, s.resetEdge_toRegisters, s.resetEdge_trace, by rw [pins_eq_pinsAt_zero, pinsAt_resetEdge]⟩
  | succ n ih =>
    have hrest : ∀ k, k < n + 1 → (s.resetEdge.pinsAt k).rst = true := fun k hk => by
      rw [pinsAt_resetEdge]
      exact h (k + 1) (Nat.succ_lt_succ hk)
    rw [steps_succ_of_rst (hrest 0 (Nat.zero_lt_succ n))]
    obtain ⟨t, hsteps, hregs, htrace, hpins⟩ := ih hrest
    exact ⟨t, hsteps, hregs, htrace.trans s.resetEdge_trace, by rw [hpins, pinsAt_resetEdge]⟩

/-- Settles O19: the run ends in the reset values, which `RESET` keeps and whose `ctl` selects `INIT`. -/
theorem resetHoldsUntilReleased : Obligations.ResetHoldsUntilReleased := by
  unfold Obligations.ResetHoldsUntilReleased
  intro n s h
  obtain ⟨t, hsteps, hregs, htrace, hpins⟩ := steps_of_rst h
  have hctl : t.ctl = .uninit := by rw [hregs, Registers.reset_ctl]
  refine ⟨t, hsteps, exec_reset_of_reset hregs, hctl, htrace, ?released⟩
  case released =>
    intro hlow
    rw [selection_of_ctl (hpins ▸ hlow), decode_code, hctl]
    rfl

end Sys2Proof.Machine

/-! Encodings (30_encoding.md): a packet's integers and axes read back from its bytes (R91, R100), the decoder against
the encoder, and the checksum (44_encoder.md R181, R182). -/

namespace Sys2Proof.Machine

/-! ## An integer read back (R100) -/

theorem leBytes_toNat (v : I32) :
    (v.extractLsb' 0 8).toNat + 256 * (v.extractLsb' 8 8).toNat + 65536 * (v.extractLsb' 16 8).toNat
      + 16777216 * (v.extractLsb' 24 8).toNat = v.toNat := by
  have hv := v.isLt
  simp only [BitVec.extractLsb'_toNat, Nat.shiftRight_eq_div_pow]
  omega

/-- Four bytes that are those of `v` are read as `v`. -/
theorem readI32_of_bytes {p : List Byte} {o : Nat} {v : I32}
    (h : ∀ j, j < 4 → p.getD (o + j) 0 = v.extractLsb' (8 * j) 8) : readI32 p o = v := by
  have h0 : p.getD o 0 = v.extractLsb' 0 8 := h 0 (by decide)
  rw [readI32, h0, h 1 (by decide), h 2 (by decide), h 3 (by decide), leBytes_toNat, BitVec.ofNat_toNat,
    BitVec.setWidth_eq]

theorem readI32_toNat (p : List Byte) (o : Nat) :
    (readI32 p o).toNat = (p.getD o 0).toNat + 256 * (p.getD (o + 1) 0).toNat + 65536 * (p.getD (o + 2) 0).toNat
      + 16777216 * (p.getD (o + 3) 0).toNat := by
  have h0 := (p.getD o 0).isLt
  have h1 := (p.getD (o + 1) 0).isLt
  have h2 := (p.getD (o + 2) 0).isLt
  have h3 := (p.getD (o + 3) 0).isLt
  rw [readI32, BitVec.toNat_ofNat]
  omega

/-- Byte `j` of an integer that was read is the byte that stood there. -/
theorem extractLsb'_readI32 (p : List Byte) (o j : Nat) (hj : j < 4) :
    (readI32 p o).extractLsb' (8 * j) 8 = p.getD (o + j) 0 := by
  have h0 := (p.getD o 0).isLt
  have h1 := (p.getD (o + 1) 0).isLt
  have h2 := (p.getD (o + 2) 0).isLt
  have h3 := (p.getD (o + 3) 0).isLt
  apply BitVec.eq_of_toNat_eq
  rw [BitVec.extractLsb'_toNat, readI32_toNat, Nat.shiftRight_eq_div_pow]
  interval_cases j
  all_goals simp only [Nat.reduceMul, Nat.reducePow, Nat.add_zero] at *
  all_goals omega

/-! ## An axis read back (R91) -/

theorem readAxis_getElem (p : List Byte) (base k : Nat) (hk : k < 5) :
    (readAxis p base)[k] = readI32 p (base + 4 * k) := by
  interval_cases k <;> rfl

theorem readAxis_of_field {p : List Byte} {base : Nat} {a : Samples} (h : AxisFieldAt p base a) :
    readAxis p base = a := by
  apply Vector.ext
  intro k hk
  rw [readAxis_getElem]
  exact readI32_of_bytes fun j hj => h.getD k j hk hj

/-- The axis that is read from `base` on has the 20 bytes that stand there. -/
theorem axisBytes_readAxis {p : List Byte} {base : Nat} (h : base + 20 ≤ p.length) :
    AxisFieldAt p base (readAxis p base) := by
  have hlen : ((p.drop base).take 20).length = 20 := by simp; omega
  rw [AxisFieldAt]
  apply List.ext_getElem?
  intro i
  by_cases hi : i < 20
  · have hk : i / 4 < 5 := by omega
    have hj : i % 4 < 4 := Nat.mod_lt i (by decide)
    have hidx : base + 4 * (i / 4) + i % 4 = base + i := by omega
    have hbyte : (axisBytes (readAxis p base))[i]? = some (p.getD (base + i) 0) := by
      rw [← Nat.div_add_mod i 4, axisBytes_getElem? _ _ _ hk hj, readAxis_getElem, extractLsb'_readI32 _ _ _ hj, hidx,
        Nat.div_add_mod]
    have hin : base + i < p.length := by omega
    rw [hbyte, List.getElem?_take_of_lt hi, List.getElem?_drop, List.getD_eq_getElem?_getD,
      List.getElem?_eq_getElem hin, Option.getD_some]
  · rw [List.getElem?_eq_none (by omega), List.getElem?_eq_none (by rw [axisBytes_length]; omega)]

/-! ## A packet read back -/

theorem readFields_packetBytes (c : Config) (p : PacketFields) :
    readFields (packetBytes c p.z p.e p.n p.ckz p.cke p.ckn) = p := by
  have htrailer := packetBytes_getD_trailer c p.z p.e p.n p.ckz p.cke p.ckn
  have hz := readAxis_of_field (packetBytes_zenithField c p.z p.e p.n p.ckz p.cke p.ckn)
  have he := readAxis_of_field (packetBytes_eastField c p.z p.e p.n p.ckz p.cke p.ckn)
  have hn := readAxis_of_field (packetBytes_northField c p.z p.e p.n p.ckz p.cke p.ckn)
  rw [readFields, hz, he, hn, htrailer 0, htrailer 1, htrailer 2]
  rfl

/-- Of 66 bytes nothing is lost that the header, the fields read and the last byte do not hold. -/
theorem packetBytes_readFields {b : List Byte} (c : Config) (hlen : b.length = 66) (h0 : b.getD 0 0 = c.header0)
    (h1 : b.getD 1 0 = c.header1) (h65 : b.getD 65 0 = c.reservedByte) :
    packetBytes c (readFields b).z (readFields b).e (readFields b).n (readFields b).ckz (readFields b).cke
      (readFields b).ckn = b := by
  have hz : (b.drop 2).take 20 = axisBytes (readFields b).z := axisBytes_readAxis (by omega)
  have he : (b.drop 22).take 20 = axisBytes (readFields b).e := axisBytes_readAxis (by omega)
  have hn : (b.drop 42).take 20 = axisBytes (readFields b).n := axisBytes_readAxis (by omega)
  have htwo : b.take 2 = [c.header0, c.header1] := by
    rw [← h0, ← h1]
    match b, hlen with
    | _ :: _ :: _, _ => rfl
  have hfour : b.drop 62 = [(readFields b).ckz, (readFields b).cke, (readFields b).ckn, c.reservedByte] := by
    rw [← h65]
    apply List.ext_getElem
    · simp [hlen]
    · intro i hi _
      rw [List.length_drop, hlen] at hi
      rw [List.getElem_drop]
      interval_cases i <;> simp [readFields, hlen]
  rw [packetBytes, ← hz, ← he, ← hn, ← htwo, ← hfour]
  have split20 : ∀ m, (b.drop m).take 20 ++ b.drop (m + 20) = b.drop m := fun m => by
    rw [← List.drop_drop, List.take_append_drop]
  simp only [List.append_assoc]
  rw [split20 42, split20 22, split20 2, List.take_append_drop]

/-! ## The decoder (R100, R104) -/

theorem decode_of_two_le {b : List Byte} (h : 2 ≤ b.length) :
    decode b = if b.length = 66 then decodePacket b else .error .badLength := by
  match b, h with
  | _ :: _ :: _, _ => rfl

/-- What passes the checks of R100. -/
theorem decodePacket_eq_ok {b : List Byte} {i : Instr} (h : decodePacket b = .ok i) :
    (b.getD 0 0 = build.header0 ∧ b.getD 1 0 = build.header1 ∧ b.getD 65 0 = build.reservedByte) ∧
      (readFields b).Ok ∧ i = .packet (readFields b) := by
  unfold decodePacket at h
  split_ifs at h with hheader hreserved hz he hn
  · cases h
    obtain ⟨h0, h1⟩ := hheader
    exact ⟨⟨h0, h1, not_not.mp hreserved⟩, ⟨hz, he, hn⟩, rfl⟩

theorem decodePacket_of_ok {b : List Byte} (h0 : b.getD 0 0 = build.header0) (h1 : b.getD 1 0 = build.header1)
    (h65 : b.getD 65 0 = build.reservedByte) (hok : (readFields b).Ok) :
    decodePacket b = .ok (.packet (readFields b)) := by
  obtain ⟨hz, he, hn⟩ := hok
  rw [decodePacket, if_neg (not_not.mpr ⟨h0, h1⟩), if_neg (not_not.mpr h65), if_neg (not_not.mpr hz),
    if_neg (not_not.mpr he), if_neg (not_not.mpr hn)]

theorem decode_packetBytes {p : PacketFields} (hok : p.Ok) :
    decode (packetBytes build p.z p.e p.n p.ckz p.cke p.ckn) = .ok (.packet p) := by
  have hlen := packetBytes_length build p.z p.e p.n p.ckz p.cke p.ckn
  have hfields := readFields_packetBytes build p
  have h65 := packetBytes_getD_trailer build p.z p.e p.n p.ckz p.cke p.ckn 3
  have hdecode := decodePacket_of_ok (b := packetBytes build p.z p.e p.n p.ckz p.cke p.ckn) rfl rfl h65
    (by rw [hfields]; exact hok)
  rw [decode_of_two_le (by rw [hlen]; decide), if_pos hlen, hdecode, hfields]

/-- Settles O28: an operation's code is one of the twelve of the table; a packet is read back field by field. -/
theorem decodeOfEncodeIsTheInstruction : Obligations.DecodeOfEncodeIsTheInstruction := by
  unfold Obligations.DecodeOfEncodeIsTheInstruction
  intro i hwf
  cases i with
  | packet p => exact decode_packetBytes hwf
  | init | warmupWait | calTemp | calSample | calWait | calFinish | poll | tAcc | tTemp | tProc | encode | txByte
  | reset => rfl

theorem decodeCode_ne_packet (w : BitVec 4) (p : PacketFields) : decodeCode w ≠ .ok (.packet p) := by
  unfold decodeCode
  split <;> simp

/-- Bytes that decode to a packet are 66 that pass the checks. -/
theorem decode_eq_packet {b : List Byte} {p : PacketFields} (h : decode b = .ok (.packet p)) :
    b.length = 66 ∧ decodePacket b = .ok (.packet p) := by
  match b, h with
  | [w], h => exact absurd h (decodeCode_ne_packet _ p)
  | x :: y :: l, h =>
    rw [decode_of_two_le (by simp)] at h
    split at h
    · exact ⟨by assumption, h⟩
    · cases h

/-- Settles O29: 66 bytes that pass the checks are the header, the fields read from them and the reserved byte. -/
theorem decodedPacketIsItsBytes : Obligations.DecodedPacketIsItsBytes := by
  unfold Obligations.DecodedPacketIsItsBytes
  intro b p h
  obtain ⟨hlen, hdecode⟩ := decode_eq_packet h
  obtain ⟨⟨h0, h1, h65⟩, hok, hp⟩ := decodePacket_eq_ok hdecode
  cases hp
  have hbytes := packetBytes_readFields build hlen h0 h1 h65
  refine ⟨hok, hbytes, ?_⟩
  obtain ⟨hz, he, hn⟩ := hok
  rw [encodePacket_toList, ← hz, ← he, ← hn, hbytes]

/-- Settles O30: the codes by the table, the zero packet because its fields are well formed. -/
theorem writtenOutWordsDecode : Obligations.WrittenOutWordsDecode := by
  unfold Obligations.WrittenOutWordsDecode
  have hzero : (PacketFields.ofSamples (Vector.replicate 5 0) (Vector.replicate 5 0) (Vector.replicate 5 0)).Ok :=
    ⟨rfl, rfl, rfl⟩
  exact ⟨rfl, rfl, rfl, rfl, rfl, rfl, rfl, decode_packetBytes hzero⟩

/-! ## The checksum (44_encoder.md R181, R182) -/

theorem foldl_xor_init (l : List Byte) (x y : Byte) : l.foldl (· ^^^ ·) (x ^^^ y) = x ^^^ l.foldl (· ^^^ ·) y := by
  induction l generalizing y with
  | nil => rfl
  | cons b l ih => rw [List.foldl_cons, List.foldl_cons, BitVec.xor_assoc, ih]

theorem foldl_xor_eq (l : List Byte) (x : Byte) : l.foldl (· ^^^ ·) x = x ^^^ l.foldl (· ^^^ ·) 0 := by
  have h := foldl_xor_init l x 0#8
  rwa [BitVec.xor_zero] at h

theorem foldl_xor_leBytes (u v : I32) :
    (leBytes (u ^^^ v)).foldl (· ^^^ ·) 0 = (leBytes u).foldl (· ^^^ ·) 0 ^^^ (leBytes v).foldl (· ^^^ ·) 0 := by
  simp only [leBytes, BitVec.extractLsb'_xor, List.foldl_cons, List.foldl_nil]
  ac_rfl

/-- The exclusive or of all bytes of the integers is that of the bytes of their exclusive or. -/
theorem foldl_xor_flatMap_leBytes (l : List I32) (u : I32) :
    (l.flatMap leBytes).foldl (· ^^^ ·) ((leBytes u).foldl (· ^^^ ·) 0) =
      (leBytes (l.foldl (· ^^^ ·) u)).foldl (· ^^^ ·) 0 := by
  induction l generalizing u with
  | nil => rfl
  | cons v l ih =>
    have hv : (leBytes v).foldl (· ^^^ ·) ((leBytes u).foldl (· ^^^ ·) 0) = (leBytes (u ^^^ v)).foldl (· ^^^ ·) 0 := by
      rw [foldl_xor_leBytes]
      exact foldl_xor_eq _ _
    rw [List.flatMap_cons, List.foldl_append, hv, ih, List.foldl_cons]

theorem checksum_eq_foldl_xor (a : Samples) :
    checksum a = (leBytes (a.toList.foldl (· ^^^ ·) 0)).foldl (· ^^^ ·) 0 :=
  foldl_xor_flatMap_leBytes a.toList 0

/-- Settles O33: the exclusive or of the samples does not depend on their order, and the checksum is a function of it.
-/
theorem checksumDoesNotDependOnOrder : Obligations.ChecksumDoesNotDependOnOrder := by
  unfold Obligations.ChecksumDoesNotDependOnOrder
  refine ⟨fun a b hperm => ?_, checksum_eq_foldl_xor⟩
  have hfold : a.toList.foldl (· ^^^ ·) 0 = b.toList.foldl (· ^^^ ·) 0 :=
    hperm.foldl_eq' (fun x _ y _ z => by rw [BitVec.xor_assoc, BitVec.xor_comm x y, ← BitVec.xor_assoc]) 0
  rw [checksum_eq_foldl_xor, checksum_eq_foldl_xor, hfold]

end Sys2Proof.Machine

/-! The meanings not stated so far: `CAL_SAMPLE` (41_calibrator.md R127), `T_TEMP` (43_scheduler.md R165), `T_PROC`
(45_orchestrator.md R202) and `PACKET` (44_encoder.md R184, log 7); the stops of the model (log 12); and the registers
each operation may write (10_state.md R41). -/

namespace Sys2Proof.Machine

/-! ## `CAL_SAMPLE` (R127) -/

theorem sext16_eq_ofInt (v : I16) : sext16 v = BitVec.ofInt 32 v.toInt := by
  rw [← sext16_toInt, BitVec.ofInt_toInt]

theorem add_sext16 (v : I32) (w : I16) : v + sext16 w = BitVec.ofInt 32 (v.toInt + w.toInt) := by
  rw [BitVec.ofInt_add, BitVec.ofInt_toInt, sext16_eq_ofInt]

section
variable {n : Nat} (r : Registers n) {p : Pins}

theorem calSampleEffect_of_read (hv : p.accValid = true) (he : p.accErr = false) :
    calSampleEffect r p =
      { regs :=
          { r with
            sum := { x := r.sum.x + sext16 p.accX, y := r.sum.y + sext16 p.accY, z := r.sum.z + sext16 p.accZ }
            calCount := r.calCount + 1
            delayStart := p.now
            ctl := .calDelay
            written := { r.written with sums := true, delayStart := true } }
        events := [.acc p.accX p.accY p.accZ false, .now p.now] } := by
  simp [calSampleEffect, accEvent, hv, he]

theorem calSampleEffect_of_error (hv : p.accValid = true) (he : p.accErr = true) :
    calSampleEffect r p = r.raiseFatal .calAccErr [.acc p.accX p.accY p.accZ true] := by
  simp [calSampleEffect, accEvent, hv, he]

theorem calSampleEffect_of_unanswered (hv : p.accValid = false) : calSampleEffect r p = r.hold := by
  simp [calSampleEffect, hv]

end

theorem exec_calSample (s : State) : exec .calSample s = .next (s.apply (calSampleEffect s.toRegisters s.pins)) :=
  exec_eq_operate .calSample s

/-- Settles O4: the three answers the acceleration port can give; a 32-bit sum is the integer sum's pattern. -/
theorem calSampleAddsOneReading : Obligations.CalSampleAddsOneReading := by
  unfold Obligations.CalSampleAddsOneReading
  refine ⟨selectedBy_of_operation rfl, fun s => ⟨?read, ?error, ?unanswered⟩⟩
  case read =>
    intro hv he
    rw [exec_calSample, calSampleEffect_of_read _ hv he]
    simp only [add_sext16]
    rfl
  case error =>
    intro hv he
    rw [exec_calSample, calSampleEffect_of_error _ hv he]
    rfl
  case unanswered =>
    intro hv
    rw [exec_calSample, calSampleEffect_of_unanswered _ hv, apply_hold]

/-! ## `T_TEMP` (R165) -/

theorem temperatureTick_build_iff (r : Registers build.windowN) :
    r.temperatureTick build = true ↔ r.tempCtr.toNat = 49 := by
  simp [Registers.temperatureTick]

section
variable {r : Registers build.windowN} {p : Pins}

theorem tTempEffect_of_count (h : r.tempCtr.toNat ≠ 49) :
    tTempEffect build r p = { regs := { r with tempCtr := r.tempCtr + 1, ctl := .tickProc }, events := [] } :=
  if_neg (mt (temperatureTick_build_iff r).mp h)

theorem tTempEffect_of_read (h : r.tempCtr.toNat = 49) (hv : p.tmpValid = true) (he : p.tmpErr = false) :
    tTempEffect build r p =
      { regs :=
          { r with
            currentTemp := p.tmpData
            tempCtr := 0
            ctl := .tickProc
            written := { r.written with currentTemp := true } }
        events := [.temp p.tmpData false] } := by
  rw [tTempEffect, if_pos ((temperatureTick_build_iff r).mpr h)]
  simp [tempEvent, hv, he]

theorem tTempEffect_of_error (h : r.tempCtr.toNat = 49) (hv : p.tmpValid = true) (he : p.tmpErr = true) :
    tTempEffect build r p = r.raiseFatal .tickTempErr [.temp p.tmpData true] := by
  rw [tTempEffect, if_pos ((temperatureTick_build_iff r).mpr h)]
  simp [tempEvent, hv, he]

theorem tTempEffect_of_unanswered (h : r.tempCtr.toNat = 49) (hv : p.tmpValid = false) :
    tTempEffect build r p = r.hold := by
  rw [tTempEffect, if_pos ((temperatureTick_build_iff r).mpr h)]
  simp [hv]

end

theorem exec_tTemp (s : State) : exec .tTemp s = .next (s.apply (tTempEffect build s.toRegisters s.pins)) :=
  exec_eq_operate .tTemp s

/-- Settles O9: only a count; or, on a 50th tick, the three answers the temperature port can give. -/
theorem tTempReadsEveryFiftiethTick : Obligations.TTempReadsEveryFiftiethTick := by
  unfold Obligations.TTempReadsEveryFiftiethTick
  refine ⟨selectedBy_of_operation rfl, fun s => ⟨?count, ?read, ?error, ?unanswered⟩⟩
  case count =>
    intro h
    rw [exec_tTemp, tTempEffect_of_count h, apply_of_no_events]
  case read =>
    intro h hv he
    rw [exec_tTemp, tTempEffect_of_read h hv he]
    rfl
  case error =>
    intro h hv he
    rw [exec_tTemp, tTempEffect_of_error h hv he]
    rfl
  case unanswered =>
    intro h hv
    rw [exec_tTemp, tTempEffect_of_unanswered h hv, apply_hold]

/-! ## `T_PROC` (R202) -/

/-- The registers after a `T_PROC` that has a free slot (R202). -/
def Registers.afterProc (c : Config) (r : Registers c.windowN) (hk : r.bufIdx.toNat < 5) : Registers c.windowN :=
  { (r.append c (r.tickOut c) r.bufIdx.toNat hk) with
    window := (r.trackOffset c).window
    wrPos := (r.trackOffset c).wrPos
    off := (r.trackOffset c).off
    filt := (r.runFilter c).filt
    last := (r.runFilter c).last }

theorem tProcEffect_of_slot {c : Config} {r : Registers c.windowN} (hk : r.bufIdx.toNat < 5) :
    tProcEffect c r = .next { regs := r.afterProc c hk, events := [] } := dif_pos hk

theorem tProcEffect_of_no_slot {c : Config} {r : Registers c.windowN} (hk : ¬ r.bufIdx.toNat < 5) :
    tProcEffect c r = .fault .slotIndex := dif_neg hk

theorem tProcEffect_eq_next {c : Config} {r : Registers c.windowN} {e : Effect c.windowN}
    (h : tProcEffect c r = .next e) : ∃ hk : r.bufIdx.toNat < 5, e = { regs := r.afterProc c hk, events := [] } :=
  tProcEffect_next h

section
variable {c : Config} (r : Registers c.windowN)

theorem trackOffset_of_gateOpen (h : r.gateOpen c = true) :
    r.trackOffset c =
      { r with
        window := windowPush r.window r.wrPos r.raw.z
        wrPos := wrPosNext r.wrPos
        off := { r.off with z := windowMean (windowPush r.window r.wrPos r.raw.z) } } := if_pos h

theorem trackOffset_of_gateShut (h : ¬ r.gateOpen c = true) : r.trackOffset c = r := if_neg h

theorem runFilter_of_hpf (h : r.cfgHpf = true) :
    r.runFilter c = { r with filt := (r.hpfLanes c).map Prod.fst, last := r.corrected } := if_pos h

theorem runFilter_of_pass (h : r.cfgHpf = false) : r.runFilter c = r := if_neg (Bool.eq_false_iff.mp h)

theorem tickOut_of_hpf (h : r.cfgHpf = true) :
    r.tickOut c = (r.hpfLanes c).map (fun q => c.numerics.f2i q.1) := if_pos h

theorem tickOut_of_pass (h : r.cfgHpf = false) : r.tickOut c = r.corrected := if_neg (Bool.eq_false_iff.mp h)

variable (hk : r.bufIdx.toNat < 5)

@[simp] theorem afterProc_ctl :
    (r.afterProc c hk).ctl = if r.bufIdx.toNat + 1 = c.samplesPerPacket then .encode else .poll := rfl
@[simp] theorem afterProc_calCount : (r.afterProc c hk).calCount = r.calCount := rfl
@[simp] theorem afterProc_bufIdx : (r.afterProc c hk).bufIdx = r.bufIdx + 1 := rfl
@[simp] theorem afterProc_txIdx : (r.afterProc c hk).txIdx = r.txIdx := rfl
@[simp] theorem afterProc_tempCtr : (r.afterProc c hk).tempCtr = r.tempCtr := rfl
@[simp] theorem afterProc_fatalCause : (r.afterProc c hk).fatalCause = r.fatalCause := rfl
@[simp] theorem afterProc_lastTick : (r.afterProc c hk).lastTick = r.lastTick := rfl
@[simp] theorem afterProc_delayStart : (r.afterProc c hk).delayStart = r.delayStart := rfl
@[simp] theorem afterProc_cfgHpf : (r.afterProc c hk).cfgHpf = r.cfgHpf := rfl
@[simp] theorem afterProc_cfgDyn : (r.afterProc c hk).cfgDyn = r.cfgDyn := rfl
@[simp] theorem afterProc_raw : (r.afterProc c hk).raw = r.raw := rfl
@[simp] theorem afterProc_sum : (r.afterProc c hk).sum = r.sum := rfl
@[simp] theorem afterProc_off : (r.afterProc c hk).off = (r.trackOffset c).off := rfl
@[simp] theorem afterProc_calibTemp : (r.afterProc c hk).calibTemp = r.calibTemp := rfl
@[simp] theorem afterProc_currentTemp : (r.afterProc c hk).currentTemp = r.currentTemp := rfl
@[simp] theorem afterProc_filt : (r.afterProc c hk).filt = (r.runFilter c).filt := rfl
@[simp] theorem afterProc_last : (r.afterProc c hk).last = (r.runFilter c).last := rfl
@[simp] theorem afterProc_window : (r.afterProc c hk).window = (r.trackOffset c).window := rfl
@[simp] theorem afterProc_wrPos : (r.afterProc c hk).wrPos = (r.trackOffset c).wrPos := rfl
@[simp] theorem afterProc_buf :
    (r.afterProc c hk).buf = Lanes.zip (fun b v => b.set r.bufIdx.toNat v hk) r.buf (r.tickOut c) := rfl
@[simp] theorem afterProc_pkt : (r.afterProc c hk).pkt = r.pkt := rfl
@[simp] theorem afterProc_written :
    (r.afterProc c hk).written = { r.written with slots := r.written.slots.set r.bufIdx.toNat true hk } := rfl

end

theorem exec_tProc (s : State) (hk : s.bufIdx.toNat < 5) :
    exec .tProc s = .next { s with toRegisters := s.afterProc build hk } := by
  rw [exec_eq_operate, operate, tProcEffect_of_slot hk, State.run_next, apply_of_no_events]

theorem correct_eq_ofInt (raw : I16) (off : I32) : correct raw off = BitVec.ofInt 32 (raw.toInt - off.toInt) := by
  rw [correct, sext16_eq_ofInt, Int.sub_eq_add_neg, BitVec.ofInt_add, BitVec.ofInt_neg, BitVec.ofInt_toInt,
    BitVec.sub_eq_add_neg]

theorem gateOpen_build_iff (r : Registers build.windowN) :
    r.gateOpen build = true ↔
      r.cfgDyn = true ∧ |r.corrected.e.toInt| < 1000 ∧ |r.corrected.n.toInt| < 1000 ∧ |r.corrected.z.toInt| < 1000 := by
  rw [Registers.gateOpen, Bool.and_eq_true, stillnessIsStrictAndPerAxis]

theorem windowMean_eq_tdiv {n : Nat} (w : Vector I32 n) :
    windowMean w = BitVec.ofInt 32 ((w.toList.map BitVec.toInt).sum.tdiv n) := by
  rw [windowMean, truncDiv_eq_tdiv]

/-- Settles O10: each of the four groups that `T_PROC` writes is a case of the gate or of the strap. -/
theorem tProcCorrectsTracksFiltersAppends : Obligations.TProcCorrectsTracksFiltersAppends := by
  unfold Obligations.TProcCorrectsTracksFiltersAppends
  refine ⟨selectedBy_of_operation rfl, ?_⟩
  intro s v f gate _ k hk hv hf hgate hidx
  subst hidx
  have hcorrected : s.corrected = v := by
    rw [hv, Registers.corrected]
    simp only [Lanes.zip, lanesOf, correct_eq_ofInt]
  have hfilt : (s.hpfLanes build).map Prod.fst = f := by
    rw [hf, ← hcorrected]
    rfl
  have hopen : s.gateOpen build = true ↔ gate := by rw [gateOpen_build_iff, hcorrected, hgate]
  have htrack : s.toRegisters.trackOffset build =
      { s.toRegisters with
        window := if gate then windowPush s.window s.wrPos s.raw.z else s.window
        wrPos := if gate then wrPosNext s.wrPos else s.wrPos
        off := if gate then { s.off with z := windowMean (windowPush s.window s.wrPos s.raw.z) } else s.off } := by
    by_cases hg : gate
    · simp only [trackOffset_of_gateOpen _ (hopen.mpr hg), if_pos hg]
    · simp only [trackOffset_of_gateShut _ (mt hopen.mp hg), if_neg hg]
  have hfilter : s.toRegisters.runFilter build =
      { s.toRegisters with filt := if s.cfgHpf then f else s.filt, last := if s.cfgHpf then v else s.last } := by
    cases hp : s.cfgHpf with
    | false => rw [runFilter_of_pass _ hp]; rfl
    | true => rw [runFilter_of_hpf _ hp, hfilt, hcorrected]; rfl
  have hout : s.toRegisters.tickOut build =
      { e := if s.cfgHpf then f2i f.e else v.e
        n := if s.cfgHpf then f2i f.n else v.n
        z := if s.cfgHpf then f2i f.z else v.z } := by
    cases hp : s.cfgHpf with
    | false => rw [tickOut_of_pass _ hp, hcorrected]; rfl
    | true => rw [tickOut_of_hpf _ hp, ← hfilt]; rfl
  have hctl : (if s.bufIdx.toNat + 1 = build.samplesPerPacket then Ctl.encode else .poll) =
      if s.bufIdx.toNat = 4 then .encode else .poll :=
    if_congr (by rw [build_samplesPerPacket]; omega) rfl rfl
  rw [exec_tProc s hk, Registers.afterProc, Registers.append, htrack, hfilter, hout, hctl, windowMean_eq_tdiv]
  rfl

/-- Settles O50: a lane's filter registers and its buffer are functions of that lane's registers, of the strap and of
the slot. -/
theorem lanesAreIndependent : Obligations.LanesAreIndependent := by
  unfold Obligations.LanesAreIndependent
  intro s s' t t' ht ht' hidx hhpf
  rw [exec_eq_operate] at ht ht'
  obtain ⟨e, he, rfl⟩ := run_eq_next ht
  obtain ⟨e', he', rfl⟩ := run_eq_next ht'
  obtain ⟨hk, rfl⟩ := tProcEffect_eq_next he
  obtain ⟨hk', rfl⟩ := tProcEffect_eq_next he'
  simp only [State.apply_toRegisters, afterProc_filt, afterProc_last, afterProc_buf, Lanes.zip, hidx]
  cases hp : s.cfgHpf with
  | false =>
    have hp' : s'.cfgHpf = false := hhpf ▸ hp
    rw [runFilter_of_pass _ hp, runFilter_of_pass _ hp', tickOut_of_pass _ hp, tickOut_of_pass _ hp']
    simp only [corrected_e, corrected_n, corrected_z]
    refine ⟨?_, ?_, ?_⟩
    all_goals
      intro hraw hoff hfilt hlast hbuf
      simp only [hraw, hoff, hfilt, hlast, hbuf, and_self]
  | true =>
    have hp' : s'.cfgHpf = true := hhpf ▸ hp
    rw [runFilter_of_hpf _ hp, runFilter_of_hpf _ hp', tickOut_of_hpf _ hp, tickOut_of_hpf _ hp']
    simp only [Lanes.map, Registers.hpfLanes, corrected_e, corrected_n, corrected_z]
    refine ⟨?_, ?_, ?_⟩
    all_goals
      intro hraw hoff hfilt hlast hbuf
      simp only [hraw, hoff, hfilt, hlast, hbuf, and_self]

/-! ## `PACKET` (R184, log 7) -/

theorem exec_packet (f : PacketFields) (s : State) :
    exec (.packet f) s = .next { s with toRegisters := s.buildPacket build f.z f.e f.n } := by
  rw [exec_eq_operate, operate, State.run_next, packetEffect, apply_of_no_events]

/-- Settles O14: the packet is `encodePacket` of the given integers, whose bytes are those of R184. -/
theorem packetStandsReadyToBeSent : Obligations.PacketStandsReadyToBeSent := by
  unfold Obligations.PacketStandsReadyToBeSent
  intro p s
  exact ⟨encodePacket build p.z p.e p.n, encodePacket_build_toList .., exec_packet p s⟩

/-! ## The stops (log 12) -/

/-- Settles O15: `T_PROC` asks for one of five slots, `TX_BYTE` for one of 66 bytes. -/
theorem impossibleIndexStopsByName : Obligations.ImpossibleIndexStopsByName := by
  unfold Obligations.ImpossibleIndexStopsByName
  refine fun s => ⟨fun hidx => ?slot, fun hidx => ?byte⟩
  case slot =>
    rw [exec_eq_operate, operate, tProcEffect_of_no_slot (by omega), State.run_fault]
  case byte =>
    have hfault : txByteEffect build s.toRegisters s.pins = .fault .packetIndex :=
      dif_neg (Nat.not_lt.mpr hidx)
    rw [exec_eq_operate, operate, hfault, State.run_fault]

/-- No meaning refuses. -/
theorem operate_ne_refused (c : Config) (i : Instr) (r : Registers c.windowN) (p : Pins) (x : Refusal) :
    operate c i r p ≠ .refused x := by
  cases i with
  | tProc =>
    by_cases hk : r.bufIdx.toNat < 5
    · rw [operate, tProcEffect_of_slot hk]
      nofun
    · rw [operate, tProcEffect_of_no_slot hk]
      nofun
  | txByte =>
    rw [operate, txByteEffect]
    split <;> nofun
  | init | warmupWait | calTemp | calSample | calWait | calFinish | poll | tAcc | tTemp | encode | reset | packet _ =>
    nofun

theorem exec_ne_refused (i : Instr) (s : State) (x : Refusal) : exec i s ≠ .refused x := by
  rw [exec_eq_operate]
  cases ho : operate build i s.toRegisters s.pins with
  | next e => nofun
  | fault y => nofun
  | refused y => exact absurd ho (operate_ne_refused build i _ _ y)

/-! ## Write rights (10_state.md R41) -/

section
variable {n : Nat} {r : Registers n}

theorem RegGroup.same_refl (g : RegGroup) (r : Registers n) : g.same r r := by
  cases g with
  | straps | offXY | window | filter => exact ⟨rfl, rfl⟩
  | ctl | delayStart | calibTemp | sums | calCount | offZ | currentTemp | lastTick | tempCtr | raw | buffers | bufIdx
  | pkt | txIdx | fatalCause => rfl

/-- Taking `Fatal` writes `ctl` and `fatal_cause` only (60_exceptions.md R222). -/
theorem RegGroup.same_raiseFatal {g : RegGroup} (hctl : g ≠ .ctl) (hcause : g ≠ .fatalCause) (x : FatalCause)
    (evs : List Event) : g.same r (r.raiseFatal x evs).regs := by
  cases g with
  | ctl => exact absurd rfl hctl
  | fatalCause => exact absurd rfl hcause
  | straps | offXY | window | filter => exact ⟨rfl, rfl⟩
  | delayStart | calibTemp | sums | calCount | offZ | currentTemp | lastTick | tempCtr | raw | buffers | bufIdx
  | pkt | txIdx => rfl

end

section
variable {c : Config} {r : Registers c.windowN} {p : Pins} {g : RegGroup}

theorem same_initEffect (hg : g ∉ mayWrite .init) : g.same r (initEffect r p).regs := by
  unfold initEffect
  split
  · cases g <;> simp_all [mayWrite, RegGroup.same]
  · exact g.same_refl r

theorem same_warmupWaitEffect (hg : g ∉ mayWrite .warmupWait) : g.same r (warmupWaitEffect c r p).regs := by
  cases g <;> simp_all [mayWrite, RegGroup.same, warmupWaitEffect]

theorem same_calTempEffect (hg : g ∉ mayWrite .calTemp) : g.same r (calTempEffect r p).regs := by
  unfold calTempEffect
  split_ifs
  · exact RegGroup.same_raiseFatal (by rintro rfl; simp [mayWrite] at hg) (by rintro rfl; simp [mayWrite] at hg) _ _
  · cases g <;> simp_all [mayWrite, RegGroup.same]
  · exact g.same_refl r

theorem same_calSampleEffect (hg : g ∉ mayWrite .calSample) : g.same r (calSampleEffect r p).regs := by
  unfold calSampleEffect
  split_ifs
  · exact RegGroup.same_raiseFatal (by rintro rfl; simp [mayWrite] at hg) (by rintro rfl; simp [mayWrite] at hg) _ _
  · cases g <;> simp_all [mayWrite, RegGroup.same]
  · exact g.same_refl r

theorem same_calWaitEffect (hg : g ∉ mayWrite .calWait) : g.same r (calWaitEffect c r p).regs := by
  cases g <;> simp_all [mayWrite, RegGroup.same, calWaitEffect]

theorem same_calFinishEffect (hg : g ∉ mayWrite .calFinish) : g.same r (calFinishEffect c r p).regs := by
  cases g <;> simp_all [mayWrite, RegGroup.same, calFinishEffect]

theorem same_pollEffect (hg : g ∉ mayWrite .poll) : g.same r (pollEffect c r p).regs := by
  unfold pollEffect
  split_ifs
  · cases g <;> simp_all [mayWrite, RegGroup.same]
  · exact g.same_refl r

theorem same_tAccEffect (hg : g ∉ mayWrite .tAcc) : g.same r (tAccEffect r p).regs := by
  unfold tAccEffect
  split_ifs
  · exact RegGroup.same_raiseFatal (by rintro rfl; simp [mayWrite] at hg) (by rintro rfl; simp [mayWrite] at hg) _ _
  · cases g <;> simp_all [mayWrite, RegGroup.same]
  · exact g.same_refl r

theorem same_tTempEffect (hg : g ∉ mayWrite .tTemp) : g.same r (tTempEffect c r p).regs := by
  unfold tTempEffect
  split_ifs
  · exact RegGroup.same_raiseFatal (by rintro rfl; simp [mayWrite] at hg) (by rintro rfl; simp [mayWrite] at hg) _ _
  · cases g <;> simp_all [mayWrite, RegGroup.same]
  · exact g.same_refl r
  · cases g <;> simp_all [mayWrite, RegGroup.same]

theorem trackOffset_off_xy (r : Registers c.windowN) :
    (r.trackOffset c).off.x = r.off.x ∧ (r.trackOffset c).off.y = r.off.y := by
  by_cases h : r.gateOpen c = true
  · rw [trackOffset_of_gateOpen _ h]
    exact ⟨rfl, rfl⟩
  · rw [trackOffset_of_gateShut _ h]
    exact ⟨rfl, rfl⟩

theorem same_afterProc (hk : r.bufIdx.toNat < 5) (hg : g ∉ mayWrite .tProc) : g.same r (r.afterProc c hk) := by
  cases g <;> simp_all [mayWrite, RegGroup.same, trackOffset_off_xy]

theorem same_buildPacket (z e n : Samples) (hg : g ∉ mayWrite .encode) : g.same r (r.buildPacket c z e n) := by
  cases g <;> simp_all [mayWrite, RegGroup.same]

theorem same_sendByte (b : Byte) (hg : g ∉ mayWrite .txByte) : g.same r (sendByte c r p b).regs := by
  unfold sendByte
  split_ifs
  · cases g <;> simp_all [mayWrite, RegGroup.same]
  · cases g <;> simp_all [mayWrite, RegGroup.same]
  · exact g.same_refl r

theorem mem_mayWrite_reset (g : RegGroup) : g ∈ mayWrite .reset := by cases g <;> decide

/-- An operation writes no group outside its row. -/
theorem same_of_operate {i : Instr} {e : Effect c.windowN} (h : operate c i r p = .next e) (hg : g ∉ mayWrite i) :
    g.same r e.regs := by
  cases i with
  | init => cases h; exact same_initEffect hg
  | warmupWait => cases h; exact same_warmupWaitEffect hg
  | calTemp => cases h; exact same_calTempEffect hg
  | calSample => cases h; exact same_calSampleEffect hg
  | calWait => cases h; exact same_calWaitEffect hg
  | calFinish => cases h; exact same_calFinishEffect hg
  | poll => cases h; exact same_pollEffect hg
  | tAcc => cases h; exact same_tAccEffect hg
  | tTemp => cases h; exact same_tTempEffect hg
  | tProc => obtain ⟨hk, rfl⟩ := tProcEffect_eq_next h; exact same_afterProc hk hg
  | encode => cases h; exact same_buildPacket _ _ _ hg
  | txByte => obtain ⟨hk, rfl⟩ := txByteEffect_next h; exact same_sendByte _ hg
  | reset => exact absurd (mem_mayWrite_reset g) hg
  | packet f => cases h; exact same_buildPacket _ _ _ hg

end

/-- Settles O26: what takes place is the operation's effect on the registers. -/
theorem writeRightsOfTheAccessTable : Obligations.WriteRightsOfTheAccessTable := by
  unfold Obligations.WriteRightsOfTheAccessTable
  intro i s t g h hg
  rw [exec_eq_operate] at h
  obtain ⟨e, he, rfl⟩ := run_eq_next h
  exact same_of_operate he hg

end Sys2Proof.Machine

/-! One clock edge (45_orchestrator.md R205, R206): selection, every move the machine can make with its condition and
its whole effect, and what follows of the transition graph, of `Fatal`, of holds and of the events. -/

namespace Sys2Proof.Machine

/-! ## Selection (30_encoding.md R104) -/

/-- Settles O17: a control state's code decodes to its operation, the code of `FATAL` to nothing. -/
theorem ctlAloneSelectsTheOperation : Obligations.CtlAloneSelectsTheOperation := by
  unfold Obligations.CtlAloneSelectsTheOperation
  intro s hr
  rw [selection_of_ctl hr, decode_code]
  cases hc : s.ctl with
  | fatal => exact ⟨rfl, nofun⟩
  | uninit | warmup | calTemp | calRead | calDelay | calDone | poll | tickAcc | tickTemp | tickProc | encode | tx => rfl

/-- Settles O16: the outcome of the instruction, with the edge ended. -/
theorem stepRunsTheDecodedInstruction : Obligations.StepRunsTheDecodedInstruction := by
  unfold Obligations.StepRunsTheDecodedInstruction
  intro s i hi
  have hstep : step s = afterEdge (exec i s) := by rw [step, hi]
  refine ⟨fun t ht => ?_, fun x hx => ?_, exec_ne_refused i s⟩
  · rw [hstep, ht]
    rfl
  · rw [hstep, hx]
    rfl

/-- Settles O20: the code of `FATAL` selects nothing, and the outputs depend on `ctl`. -/
theorem fatalStaysUntilReset : Obligations.FatalStaysUntilReset := by
  unfold Obligations.FatalStaysUntilReset
  intro s hc hr
  refine ⟨?_, ?_⟩
  · rw [step, selection_of_ctl hr, hc]
    rfl
  · simp [Registers.outPins, hc]

/-! ## A word placed (log 9) -/

/-- What a code selects is placed as the control state of that operation. -/
theorem ofCode_of_decodeCode {w : BitVec 4} {i : Instr} (h : decodeCode w = .ok i) :
    ∃ c, Ctl.ofCode w = some c ∧ c.operation = some i := by
  have hlt := w.isLt
  unfold decodeCode at h
  unfold Ctl.ofCode
  generalize w.toNat = k at h hlt ⊢
  interval_cases k
  all_goals cases h
  all_goals exact ⟨_, rfl, rfl⟩

theorem bytesOf_length (w k : Nat) : (bytesOf w k).length = k := by
  induction k generalizing w with
  | zero => rfl
  | succ k ih => rw [bytesOf, List.length_cons, ih]

/-- Two bytes or more are no code: what they decode to is the packet of their fields. -/
theorem decode_eq_ok_of_two_le {b : List Byte} {i : Instr} (hlen : 2 ≤ b.length) (h : decode b = .ok i) :
    i = .packet (readFields b) := by
  rw [decode_of_two_le hlen] at h
  split at h
  · obtain ⟨-, -, hi⟩ := decodePacket_eq_ok h
    exact hi
  · cases h

theorem step_pushPins_of_operation {s : State} {p : Pins} {i : Instr} (hr : p.rst = false)
    (hi : s.ctl.operation = some i) : step (s.pushPins p) = afterEdge (exec i (s.pushPins p)) :=
  step_of_operation hr hi

/-- `ENCODE` on buffers filled with a packet's samples is that packet's own meaning. -/
theorem exec_encode_selectPacket (s : State) (f : PacketFields) (p : Pins) :
    exec .encode ((s.selectPacket f).pushPins p) = exec (.packet f) ((s.selectPacket f).pushPins p) := rfl

/-- Settles O18: no bits place `RESET`, up to eight an operation's code, more a packet. -/
theorem placedWordRunsAtTheNextStep : Obligations.PlacedWordRunsAtTheNextStep := by
  unfold Obligations.PlacedWordRunsAtTheNextStep
  intro s nbits w i h
  have hdecode : decode (wordBytes nbits w) = .ok i := by
    unfold decodeTableWord at h
    split at h
    · cases h
      assumption
    · cases h
  unfold State.withFetchWord State.placeWord
  unfold wordBytes at hdecode
  split_ifs at hdecode ⊢ with hzero hbyte
  · cases hdecode
    exact step_of_rst rfl
  · have hcode : (BitVec.ofNat 8 w).extractLsb' 0 4 = BitVec.ofNat 4 w := by
      apply BitVec.eq_of_toNat_eq
      simp only [BitVec.extractLsb'_toNat, BitVec.toNat_ofNat, Nat.shiftRight_zero]
      omega
    have hcodeOk : decodeCode ((BitVec.ofNat 8 w).extractLsb' 0 4) = .ok i := hdecode
    rw [hcode] at hcodeOk
    obtain ⟨c, hc, hi⟩ := ofCode_of_decodeCode hcodeOk
    rw [State.selectCode, hc]
    exact step_pushPins_of_operation rfl hi
  · have htwo : 2 ≤ (bytesOf w ((nbits + 7) / 8) ++ List.replicate (build.packetLen - (nbits + 7) / 8) 0).length := by
      rw [List.length_append, bytesOf_length]
      omega
    have hi := decode_eq_ok_of_two_le htwo hdecode
    rw [wordBytes, if_neg hzero, if_neg hbyte, hi, ← exec_encode_selectPacket]
    exact step_pushPins_of_operation rfl rfl

/-! ## Moves -/

/-- Every move the built machine can make at one clock edge: its condition, and its whole effect. One constructor per
edge of the table of 45_orchestrator.md R205, beside reset, holds and `FATAL`. -/
inductive Move (r : Registers build.windowN) (p : Pins) : Effect build.windowN → Prop where
  | reset (hr : p.rst = true) : Move r p (resetEffect build)
  | held (hr : p.rst = false) (hw : r.waits build p = true) (hi : r.ctl = .tx → r.txIdx.toNat < 66) : Move r p r.hold
  | fatal (hr : p.rst = false) (hc : r.ctl = .fatal) : Move r p r.hold
  | init (hr : p.rst = false) (hc : r.ctl = .uninit) (hv : p.initAck = true) :
      Move r p
        { regs :=
            { r with
              cfgHpf := p.cfgHpf
              cfgDyn := p.cfgDyn
              delayStart := p.now
              ctl := .warmup
              written := { r.written with straps := true, delayStart := true } }
          events := [.envInit, .now p.now] }
  | warmupWait (hr : p.rst = false) (hc : r.ctl = .warmup) (hd : usSince r.delayStart p.now < build.warmupUs) :
      Move r p { regs := r, events := [.now p.now] }
  | warmupGo (hr : p.rst = false) (hc : r.ctl = .warmup) (hd : build.warmupUs ≤ usSince r.delayStart p.now) :
      Move r p { regs := { r with ctl := .calTemp }, events := [.now p.now] }
  | calTempOk (hr : p.rst = false) (hc : r.ctl = .calTemp) (hv : p.tmpValid = true) (he : p.tmpErr = false) :
      Move r p
        { regs :=
            { r with
              calibTemp := p.tmpData
              sum := { x := 0, y := 0, z := 0 }
              calCount := 0
              ctl := .calRead
              written := { r.written with calibTemp := true, sums := true } }
          events := [.temp p.tmpData false] }
  | calTempErr (hr : p.rst = false) (hc : r.ctl = .calTemp) (hv : p.tmpValid = true) (he : p.tmpErr = true) :
      Move r p (r.raiseFatal .calTempErr [.temp p.tmpData true])
  | sampleOk (hr : p.rst = false) (hc : r.ctl = .calRead) (hv : p.accValid = true) (he : p.accErr = false) :
      Move r p
        { regs :=
            { r with
              sum := { x := r.sum.x + sext16 p.accX, y := r.sum.y + sext16 p.accY, z := r.sum.z + sext16 p.accZ }
              calCount := r.calCount + 1
              delayStart := p.now
              ctl := .calDelay
              written := { r.written with sums := true, delayStart := true } }
          events := [.acc p.accX p.accY p.accZ false, .now p.now] }
  | sampleErr (hr : p.rst = false) (hc : r.ctl = .calRead) (hv : p.accValid = true) (he : p.accErr = true) :
      Move r p (r.raiseFatal .calAccErr [.acc p.accX p.accY p.accZ true])
  | delayWait (hr : p.rst = false) (hc : r.ctl = .calDelay) (hd : usSince r.delayStart p.now < build.calDelayUs) :
      Move r p { regs := r, events := [.now p.now] }
  | delayMore (hr : p.rst = false) (hc : r.ctl = .calDelay) (hd : build.calDelayUs ≤ usSince r.delayStart p.now)
      (hn : r.calCount.toNat ≠ 200) : Move r p { regs := { r with ctl := .calRead }, events := [.now p.now] }
  | delayDone (hr : p.rst = false) (hc : r.ctl = .calDelay) (hd : build.calDelayUs ≤ usSince r.delayStart p.now)
      (hn : r.calCount.toNat = 200) : Move r p { regs := { r with ctl := .calDone }, events := [.now p.now] }
  | finish (hr : p.rst = false) (hc : r.ctl = .calDone) : Move r p (calFinishEffect build r p)
  | idle (hr : p.rst = false) (hc : r.ctl = .poll) (hd : usSince r.lastTick p.now < 20000) :
      Move r p { regs := r, events := [.now p.now] }
  | fire (hr : p.rst = false) (hc : r.ctl = .poll) (hd : 20000 ≤ usSince r.lastTick p.now) :
      Move r p { regs := { r with lastTick := r.lastTick + 20000, ctl := .tickAcc }, events := [.now p.now] }
  | accOk (hr : p.rst = false) (hc : r.ctl = .tickAcc) (hv : p.accValid = true) (he : p.accErr = false) :
      Move r p
        { regs :=
            { r with
              raw := { x := p.accX, y := p.accY, z := p.accZ }
              ctl := .tickTemp
              written := { r.written with raw := true } }
          events := [.acc p.accX p.accY p.accZ false] }
  | accErr (hr : p.rst = false) (hc : r.ctl = .tickAcc) (hv : p.accValid = true) (he : p.accErr = true) :
      Move r p (r.raiseFatal .tickAccErr [.acc p.accX p.accY p.accZ true])
  | tempCount (hr : p.rst = false) (hc : r.ctl = .tickTemp) (hn : r.tempCtr.toNat ≠ 49) :
      Move r p { regs := { r with tempCtr := r.tempCtr + 1, ctl := .tickProc }, events := [] }
  | tempOk (hr : p.rst = false) (hc : r.ctl = .tickTemp) (hn : r.tempCtr.toNat = 49) (hv : p.tmpValid = true)
      (he : p.tmpErr = false) :
      Move r p
        { regs :=
            { r with
              currentTemp := p.tmpData
              tempCtr := 0
              ctl := .tickProc
              written := { r.written with currentTemp := true } }
          events := [.temp p.tmpData false] }
  | tempErr (hr : p.rst = false) (hc : r.ctl = .tickTemp) (hn : r.tempCtr.toNat = 49) (hv : p.tmpValid = true)
      (he : p.tmpErr = true) : Move r p (r.raiseFatal .tickTempErr [.temp p.tmpData true])
  | proc (hr : p.rst = false) (hc : r.ctl = .tickProc) (hk : r.bufIdx.toNat < 5) :
      Move r p { regs := r.afterProc build hk, events := [] }
  | encode (hr : p.rst = false) (hc : r.ctl = .encode) :
      Move r p { regs := r.buildPacket build r.buf.z r.buf.e r.buf.n, events := [] }
  | txMore (hr : p.rst = false) (hc : r.ctl = .tx) (hv : p.txReady = true) (hi : r.txIdx.toNat < 65) :
      Move r p
        { regs := { r with txIdx := BitVec.ofNat 7 (r.txIdx.toNat + 1) }
          events := [.tx (r.pkt[r.txIdx.toNat]'(Nat.lt_succ_of_lt hi))] }
  | txLast (hr : p.rst = false) (hc : r.ctl = .tx) (hv : p.txReady = true) (hi : r.txIdx.toNat = 65) :
      Move r p { regs := { r with ctl := .poll }, events := [.tx (r.pkt[65]'(by decide))] }

section
variable {r : Registers build.windowN} {p : Pins} {e : Effect build.windowN}

theorem txByteEffect_of_byte (h : r.txIdx.toNat < 66) :
    txByteEffect build r p = .next (sendByte build r p (r.pkt[r.txIdx.toNat]'h)) := dif_pos h

theorem coreStep_of_ctl {c : Ctl} {i : Instr} (hr : p.rst = false) (hc : r.ctl = c) (hi : c.operation = some i) :
    coreStep build r p = operate build i r p := by
  unfold coreStep Registers.selection
  simp [hr, hc, decode_code, hi]

/-- While an operation waits for its handshake, its effect is to hold. -/
theorem coreStep_of_waits (hr : p.rst = false) (hw : r.waits build p = true)
    (hi : r.ctl = .tx → r.txIdx.toNat < 66) : coreStep build r p = .next r.hold := by
  unfold Registers.waits at hw
  cases hc : r.ctl <;> rw [hc] at hw <;> simp only [Bool.not_eq_true', Bool.and_eq_true, Bool.false_eq_true] at hw
  case uninit => rw [coreStep_of_ctl hr hc rfl, operate, initEffect_of_no_ack r hw]
  case calTemp => rw [coreStep_of_ctl hr hc rfl, operate, calTempEffect_of_unanswered r hw]
  case calRead => rw [coreStep_of_ctl hr hc rfl, operate, calSampleEffect_of_unanswered r hw]
  case tickAcc => rw [coreStep_of_ctl hr hc rfl, operate, tAccEffect_of_unanswered r hw]
  case tickTemp =>
    obtain ⟨htick, hv⟩ := hw
    rw [coreStep_of_ctl hr hc rfl, operate, tTempEffect_of_unanswered ((temperatureTick_build_iff r).mp htick) hv]
  case tx => rw [coreStep_of_ctl hr hc rfl, operate, txByteEffect_of_byte (hi hc), sendByte_of_not_ready _ hw]

theorem warmupWaitEffect_build : warmupWaitEffect build r p =
    { regs := { r with ctl := if build.warmupUs ≤ usSince r.delayStart p.now then .calTemp else r.ctl }
      events := [.now p.now] } := by
  rw [warmupWaitEffect, ite_delayOver]

theorem calWaitEffect_build : calWaitEffect build r p =
    { regs :=
        { r with
          ctl :=
            if build.calDelayUs ≤ usSince r.delayStart p.now then
              (if r.calCount.toNat = 200 then .calDone else .calRead)
            else r.ctl }
      events := [.now p.now] } := by
  rw [calWaitEffect, ite_delayOver, build_calibrationSamples]

/-- The moves are the step relation of R206 for the built configuration. -/
theorem move_of_coreStep (h : coreStep build r p = .next e) : Move r p e := by
  rw [coreStep_next, EdgeEffect] at h
  obtain ⟨hr, rfl⟩ | ⟨hr, h⟩ := h
  · exact .reset hr
  cases hc : r.ctl <;> rw [hc] at h
  case uninit =>
    subst h
    cases hv : p.initAck with
    | false => rw [initEffect_of_no_ack r hv]; exact .held hr (by simp [Registers.waits, hc, hv]) (by simp [hc])
    | true => rw [initEffect_of_ack r hv]; exact .init hr hc hv
  case warmup =>
    subst h
    rw [warmupWaitEffect_build]
    by_cases hd : build.warmupUs ≤ usSince r.delayStart p.now
    · rw [if_pos hd]; exact .warmupGo hr hc hd
    · rw [if_neg hd]; exact .warmupWait hr hc (Nat.not_le.mp hd)
  case calTemp =>
    subst h
    cases hv : p.tmpValid with
    | false => rw [calTempEffect_of_unanswered r hv]; exact .held hr (by simp [Registers.waits, hc, hv]) (by simp [hc])
    | true =>
      cases he : p.tmpErr with
      | false => rw [calTempEffect_of_read r hv he]; exact .calTempOk hr hc hv he
      | true => rw [calTempEffect_of_error r hv he]; exact .calTempErr hr hc hv he
  case calRead =>
    subst h
    cases hv : p.accValid with
    | false =>
      rw [calSampleEffect_of_unanswered r hv]; exact .held hr (by simp [Registers.waits, hc, hv]) (by simp [hc])
    | true =>
      cases he : p.accErr with
      | false => rw [calSampleEffect_of_read r hv he]; exact .sampleOk hr hc hv he
      | true => rw [calSampleEffect_of_error r hv he]; exact .sampleErr hr hc hv he
  case calDelay =>
    subst h
    rw [calWaitEffect_build]
    by_cases hd : build.calDelayUs ≤ usSince r.delayStart p.now
    · rw [if_pos hd]
      by_cases hn : r.calCount.toNat = 200
      · rw [if_pos hn]; exact .delayDone hr hc hd hn
      · rw [if_neg hn]; exact .delayMore hr hc hd hn
    · rw [if_neg hd]; exact .delayWait hr hc (Nat.not_le.mp hd)
  case calDone => subst h; exact .finish hr hc
  case poll =>
    subst h
    by_cases hd : 20000 ≤ usSince r.lastTick p.now
    · rw [pollEffect_of_due ((due_build_iff ..).mpr hd)]; exact .fire hr hc hd
    · rw [pollEffect_of_not_due (mt (due_build_iff ..).mp hd)]; exact .idle hr hc (Nat.not_le.mp hd)
  case tickAcc =>
    subst h
    cases hv : p.accValid with
    | false => rw [tAccEffect_of_unanswered r hv]; exact .held hr (by simp [Registers.waits, hc, hv]) (by simp [hc])
    | true =>
      cases he : p.accErr with
      | false => rw [tAccEffect_of_read r hv he]; exact .accOk hr hc hv he
      | true => rw [tAccEffect_of_error r hv he]; exact .accErr hr hc hv he
  case tickTemp =>
    subst h
    by_cases hn : r.tempCtr.toNat = 49
    · cases hv : p.tmpValid with
      | false =>
        have hw : r.waits build p = true := by
          simp [Registers.waits, hc, hv, (temperatureTick_build_iff r).mpr hn]
        rw [tTempEffect_of_unanswered hn hv]; exact .held hr hw (by simp [hc])
      | true =>
        cases he : p.tmpErr with
        | false => rw [tTempEffect_of_read hn hv he]; exact .tempOk hr hc hn hv he
        | true => rw [tTempEffect_of_error hn hv he]; exact .tempErr hr hc hn hv he
    · rw [tTempEffect_of_count hn]; exact .tempCount hr hc hn
  case tickProc =>
    obtain ⟨hk, rfl⟩ := tProcEffect_eq_next h
    exact .proc hr hc hk
  case encode => subst h; exact .encode hr hc
  case tx =>
    obtain ⟨hk, rfl⟩ := txByteEffect_next h
    cases hv : p.txReady with
    | false => rw [sendByte_of_not_ready _ hv]; exact .held hr (by simp [Registers.waits, hc, hv]) (fun _ => hk)
    | true =>
      by_cases hi : r.txIdx.toNat < 65
      · rw [sendByte_of_before_last _ hv hi]; exact .txMore hr hc hv hi
      · have hlast : r.txIdx.toNat = 65 := by omega
        rw [sendByte_of_last _ hv hlast]
        simp only [hlast]
        exact .txLast hr hc hv hlast
  case fatal => subst h; exact .fatal hr hc

/-- Each move is the edge's effect. -/
theorem coreStep_of_move (h : Move r p e) : coreStep build r p = .next e := by
  cases h
  case reset hr => exact coreStep_next.mpr (.inl ⟨hr, rfl⟩)
  case held hr hw hi => exact coreStep_of_waits hr hw hi
  case fatal hr hc => exact coreStep_next.mpr (.inr ⟨hr, by rw [hc]⟩)
  case init hr hc hv => rw [coreStep_of_ctl hr hc rfl, operate, initEffect_of_ack r hv]
  case warmupWait hr hc hd =>
    rw [coreStep_of_ctl hr hc rfl, operate, warmupWaitEffect_build, if_neg (Nat.not_le.mpr hd)]
  case warmupGo hr hc hd => rw [coreStep_of_ctl hr hc rfl, operate, warmupWaitEffect_build, if_pos hd]
  case calTempOk hr hc hv he => rw [coreStep_of_ctl hr hc rfl, operate, calTempEffect_of_read r hv he]
  case calTempErr hr hc hv he => rw [coreStep_of_ctl hr hc rfl, operate, calTempEffect_of_error r hv he]
  case sampleOk hr hc hv he => rw [coreStep_of_ctl hr hc rfl, operate, calSampleEffect_of_read r hv he]
  case sampleErr hr hc hv he => rw [coreStep_of_ctl hr hc rfl, operate, calSampleEffect_of_error r hv he]
  case delayWait hr hc hd =>
    rw [coreStep_of_ctl hr hc rfl, operate, calWaitEffect_build, if_neg (Nat.not_le.mpr hd)]
  case delayMore hr hc hd hn => rw [coreStep_of_ctl hr hc rfl, operate, calWaitEffect_build, if_pos hd, if_neg hn]
  case delayDone hr hc hd hn => rw [coreStep_of_ctl hr hc rfl, operate, calWaitEffect_build, if_pos hd, if_pos hn]
  case finish hr hc => rw [coreStep_of_ctl hr hc rfl, operate]
  case idle hr hc hd =>
    rw [coreStep_of_ctl hr hc rfl, operate, pollEffect_of_not_due (mt (due_build_iff ..).mp (Nat.not_le.mpr hd))]
  case fire hr hc hd =>
    rw [coreStep_of_ctl hr hc rfl, operate, pollEffect_of_due ((due_build_iff ..).mpr hd)]
    rfl
  case accOk hr hc hv he => rw [coreStep_of_ctl hr hc rfl, operate, tAccEffect_of_read r hv he]
  case accErr hr hc hv he => rw [coreStep_of_ctl hr hc rfl, operate, tAccEffect_of_error r hv he]
  case tempCount hr hc hn => rw [coreStep_of_ctl hr hc rfl, operate, tTempEffect_of_count hn]
  case tempOk hr hc hn hv he => rw [coreStep_of_ctl hr hc rfl, operate, tTempEffect_of_read hn hv he]
  case tempErr hr hc hn hv he => rw [coreStep_of_ctl hr hc rfl, operate, tTempEffect_of_error hn hv he]
  case proc hr hc hk => rw [coreStep_of_ctl hr hc rfl, operate, tProcEffect_of_slot hk]
  case encode hr hc => rw [coreStep_of_ctl hr hc rfl, operate, encodeEffect]
  case txMore hr hc hv hi =>
    rw [coreStep_of_ctl hr hc rfl, operate, txByteEffect_of_byte (by omega), sendByte_of_before_last _ hv hi]
  case txLast hr hc hv hi =>
    rw [coreStep_of_ctl hr hc rfl, operate, txByteEffect_of_byte (by omega), sendByte_of_last _ hv hi]
    simp only [hi]

theorem coreStep_iff_move : coreStep build r p = .next e ↔ Move r p e := ⟨move_of_coreStep, coreStep_of_move⟩

end

/-- All a step that answers a next state can have done. -/
theorem step_eq_next {s t : State} (h : step s = .next t) :
    ∃ e, Move s.toRegisters s.pins e ∧ t = (s.apply e).nextEdge := by
  obtain ⟨e, he, ht⟩ := step_next_effect h
  exact ⟨e, move_of_coreStep (coreStep_next.mpr he), ht⟩

theorem step_of_move {s : State} {e : Effect build.windowN} (h : Move s.toRegisters s.pins e) :
    step s = .next (s.apply e).nextEdge := by
  rw [step_eq_coreStep, coreStep_of_move h]
  rfl

/-- A step's next state is that of any move the state can make: there is only one. -/
theorem eq_of_move {s t : State} {e : Effect build.windowN} (h : step s = .next t)
    (hm : Move s.toRegisters s.pins e) : t = (s.apply e).nextEdge := by
  rw [step_of_move hm] at h
  exact (Host.Outcome.next.inj h).symm

end Sys2Proof.Machine

/-! What one move says of `Fatal` (60_exceptions.md R222), of holds and the output pins (20_memory.md R62, R75), of the
transition graph (45_orchestrator.md R205), of the events (20_memory.md R65, R67) and of the offsets (41_calibrator.md
R130). -/

namespace Sys2Proof.Machine

/-! ## `Fatal` -/

/-- Settles O21: only the four moves of a failed read enter `FATAL`, and each is `raiseFatal` with its cause. -/
theorem fatalIsPreciseAndNamesItsCause : Obligations.FatalIsPreciseAndNamesItsCause := by
  unfold Obligations.FatalIsPreciseAndNamesItsCause
  intro s t h hs ht
  obtain ⟨e, hm, rfl⟩ := step_eq_next h
  cases hm with
  | calTempErr hr hc hv he => exact ⟨_, rfl, .inl ⟨hc, rfl, he, rfl⟩⟩
  | sampleErr hr hc hv he => exact ⟨_, rfl, .inr (.inl ⟨hc, rfl, he, rfl⟩)⟩
  | accErr hr hc hv he => exact ⟨_, rfl, .inr (.inr (.inl ⟨hc, rfl, he, rfl⟩))⟩
  | tempErr hr hc hn hv he => exact ⟨_, rfl, .inr (.inr (.inr ⟨hc, rfl, he, rfl⟩))⟩
  | held | fatal | warmupWait | delayWait | idle | txMore => exact absurd ht hs
  | proc hr hc hk =>
    simp only [State.nextEdge_toRegisters, State.apply_toRegisters, afterProc_ctl] at ht
    split at ht <;> cases ht
  | reset | init | warmupGo | calTempOk | sampleOk | delayMore | delayDone | finish | fire | accOk | tempCount | tempOk
  | encode | txLast => cases ht

/-- Without an error flag no move enters `FATAL`, and only the moves of an error and reset write `fatal_cause`. -/
theorem safe_of_move {r : Registers build.windowN} {p : Pins} {e : Effect build.windowN} (hs : r.Safe)
    (hacc : p.accErr = false) (htmp : p.tmpErr = false) (hm : Move r p e) : e.regs.Safe := by
  obtain ⟨hctl, hcause⟩ := hs
  cases hm with
  | calTempErr hr hc hv he => exact absurd (htmp.symm.trans he) Bool.false_ne_true
  | sampleErr hr hc hv he => exact absurd (hacc.symm.trans he) Bool.false_ne_true
  | accErr hr hc hv he => exact absurd (hacc.symm.trans he) Bool.false_ne_true
  | tempErr hr hc hn hv he => exact absurd (htmp.symm.trans he) Bool.false_ne_true
  | held | fatal | warmupWait | delayWait | idle | txMore => exact ⟨hctl, hcause⟩
  | reset => exact ⟨nofun, rfl⟩
  | proc hr hc hk =>
    refine ⟨?_, hcause⟩
    rw [afterProc_ctl]
    split <;> exact nofun
  | init | warmupGo | calTempOk | sampleOk | delayMore | delayDone | finish | fire | accOk | tempCount | tempOk
  | encode | txLast => exact ⟨nofun, hcause⟩

/-- Settles O22: by the moves. -/
theorem noErrorFlagsNoFatal : Obligations.NoErrorFlagsNoFatal := by
  unfold Obligations.NoErrorFlagsNoFatal
  intro s t hs hacc htmp h
  obtain ⟨e, hm, rfl⟩ := step_eq_next h
  exact safe_of_move hs hacc htmp hm

/-! ## Holds and the output pins -/

theorem outPins_txData (r : Registers build.windowN) (rst : Bool) (h : r.txIdx.toNat < 66) :
    (r.outPins build rst).txData = if rst = false ∧ r.ctl = .tx then some (r.pkt[r.txIdx.toNat]'h) else none := by
  have hbyte : r.pkt.toList[r.txIdx.toNat]? = some (r.pkt[r.txIdx.toNat]'h) := by simp [h]
  simp only [Registers.outPins, hbyte]
  exact if_congr (by simp) rfl rfl

/-- Settles O23: a hold is a move that changes nothing; each request pin is the test of its control states. -/
theorem holdKeepsStateAndRequests : Obligations.HoldKeepsStateAndRequests := by
  unfold Obligations.HoldKeepsStateAndRequests
  refine ⟨fun s hr hw hidx => ⟨?step, ?init, ?acc, ?tmp, ?tx, ?waiting⟩,
    fun r rst => ⟨?initReq, ?accReq, ?tmpReq, ?txValid, outPins_txData r rst, ?fatal⟩⟩
  case step =>
    rw [step_of_move (.held hr hw fun _ => Nat.lt_succ_of_le hidx), apply_hold]
    rfl
  case init =>
    intro hc
    simp [Registers.outPins, hc]
  case acc =>
    intro hc
    simp [Registers.outPins, hc]
  case tmp =>
    rintro (hc | hc)
    · simp [Registers.outPins, hc]
    · have htick : s.toRegisters.temperatureTick build = true := by
        simp only [State.holding, Registers.waits, hc, Bool.and_eq_true] at hw
        exact hw.1
      simp [Registers.outPins, hc, htick]
  case tx =>
    intro hc
    simp [Registers.outPins, hc]
  case waiting =>
    unfold State.holding Registers.waits at hw
    cases hc : s.ctl <;> simp [hc] at hw ⊢
  case initReq => simp [Registers.outPins]
  case accReq => simp [Registers.outPins]
  case tmpReq => simp [Registers.outPins, temperatureTick_build_iff]
  case txValid => simp [Registers.outPins]
  case fatal => simp [Registers.outPins]

/-! ## The transition graph (R205) -/

section
variable {s : State}

theorem holding_uninit (h : s.ctl = .uninit) : s.holding = !s.pins.initAck := by
  simp [State.holding, Registers.waits, h]

theorem holding_calTemp (h : s.ctl = .calTemp) : s.holding = !s.pins.tmpValid := by
  simp [State.holding, Registers.waits, h]

theorem holding_calRead (h : s.ctl = .calRead) : s.holding = !s.pins.accValid := by
  simp [State.holding, Registers.waits, h]

theorem holding_tickAcc (h : s.ctl = .tickAcc) : s.holding = !s.pins.accValid := by
  simp [State.holding, Registers.waits, h]

theorem holding_tickTemp (h : s.ctl = .tickTemp) :
    s.holding = (s.toRegisters.temperatureTick build && !s.pins.tmpValid) := by
  simp [State.holding, Registers.waits, h]

theorem holding_tx (h : s.ctl = .tx) : s.holding = !s.pins.txReady := by
  simp [State.holding, Registers.waits, h]

/-- An operation without a handshake never holds (20_memory.md R75). -/
theorem holding_of_no_handshake (h : s.ctl = .warmup ∨ s.ctl = .calDelay ∨ s.ctl = .calDone ∨ s.ctl = .poll ∨
    s.ctl = .tickProc ∨ s.ctl = .encode ∨ s.ctl = .fatal) : s.holding = false := by
  rcases h with h | h | h | h | h | h | h <;> simp [State.holding, Registers.waits, h]

end

/-- Settles O24: each move is an edge of the table, or one of the two ways of staying put. -/
theorem everyStepIsAnEdgeOfTheGraph : Obligations.EveryStepIsAnEdgeOfTheGraph := by
  unfold Obligations.EveryStepIsAnEdgeOfTheGraph
  intro s t hcount h
  obtain ⟨e, hm, rfl⟩ := step_eq_next h
  rw [State.nextEdge_toRegisters, State.apply_toRegisters]
  cases hm with
  | reset hr => exact .reset _ hr
  | held hr hw hi => exact .held _ hr hw
  | fatal hr hc => rw [Registers.hold_regs, hc]; exact .fatal hr
  | init hr hc hv => rw [hc]; exact .init hr (by simp [holding_uninit hc, hv])
  | warmupWait hr hc hd => rw [hc]; exact .warmupWait hr hd
  | warmupGo hr hc hd => rw [hc]; exact .warmupGo hr hd
  | calTempOk hr hc hv he => rw [hc]; exact .calTempOk hr (by simp [holding_calTemp hc, hv]) he
  | calTempErr hr hc hv he => rw [hc]; exact .calTempErr hr (by simp [holding_calTemp hc, hv]) he
  | sampleOk hr hc hv he => rw [hc]; exact .sampleOk hr (by simp [holding_calRead hc, hv]) he
  | sampleErr hr hc hv he => rw [hc]; exact .sampleErr hr (by simp [holding_calRead hc, hv]) he
  | delayWait hr hc hd => rw [hc]; exact .delayWait hr hd
  | delayMore hr hc hd hn => rw [hc]; exact .delayMore hr hd (by omega)
  | delayDone hr hc hd hn => rw [hc]; exact .delayDone hr hd hn
  | finish hr hc => rw [hc]; exact .finish hr
  | idle hr hc hd => rw [hc]; exact .idle hr hd
  | fire hr hc hd => rw [hc]; exact .fire hr hd
  | accOk hr hc hv he => rw [hc]; exact .accOk hr (by simp [holding_tickAcc hc, hv]) he
  | accErr hr hc hv he => rw [hc]; exact .accErr hr (by simp [holding_tickAcc hc, hv]) he
  | tempCount hr hc hn =>
    rw [hc]
    exact .tempOk hr (by simp [holding_tickTemp hc, Registers.temperatureTick, hn]) (by omega)
  | tempOk hr hc hn hv he => rw [hc]; exact .tempOk hr (by simp [holding_tickTemp hc, hv]) (fun _ => he)
  | tempErr hr hc hn hv he => rw [hc]; exact .tempErr hr (by simp [holding_tickTemp hc, hv]) (by omega) he
  | proc hr hc hk =>
    rw [hc, afterProc_ctl, build_samplesPerPacket]
    split_ifs with hfull
    · exact .procFull hr (by omega)
    · exact .procMore hr (by omega)
  | encode hr hc => rw [hc]; exact .encode hr
  | txMore hr hc hv hi => rw [hc]; exact .txMore hr (by simp [holding_tx hc, hv]) hi
  | txLast hr hc hv hi => rw [hc]; exact .txLast hr (by simp [holding_tx hc, hv]) hi

/-- In `TX` a step was taken only with a byte at `tx_idx`. -/
theorem txIdx_lt_of_step {s t : State} (h : step s = .next t) (hr : s.pins.rst = false) (hc : s.ctl = .tx) :
    s.txIdx.toNat < 66 := by
  obtain ⟨e, hm, -⟩ := step_eq_next h
  cases hm with
  | held _ _ hi => exact hi hc
  | txMore _ _ _ hi => exact Nat.lt_succ_of_lt hi
  | txLast _ _ _ hi => omega
  | reset hr' => exact absurd (hr.symm.trans hr') Bool.false_ne_true
  | fatal | init | warmupWait | warmupGo | calTempOk | calTempErr | sampleOk | sampleErr | delayWait | delayMore
  | delayDone | finish | idle | fire | accOk | accErr | tempCount | tempOk | tempErr | proc | encode => simp_all

/-- Settles O25: the condition of an edge is that of a move, and a step is its only move. -/
theorem edgesOfTheGraphAreExclusive : Obligations.EdgesOfTheGraphAreExclusive := by
  unfold Obligations.EdgesOfTheGraphAreExclusive
  intro s t c h hedge
  have moved : ∀ {e : Effect build.windowN}, Move s.toRegisters s.pins e → t.ctl = e.regs.ctl := fun hm => by
    rw [eq_of_move h hm, State.nextEdge_toRegisters, State.apply_toRegisters]
  generalize hc : s.ctl = a at hedge
  cases hedge with
  | reset _ hr => rw [moved (.reset hr), resetEffect_regs, Registers.reset_ctl]
  | held _ hr hw => rw [moved (.held hr hw (txIdx_lt_of_step h hr)), Registers.hold_regs, hc]
  | fatal hr => rw [moved (.fatal hr hc), Registers.hold_regs, hc]
  | init hr hw => rw [moved (.init hr hc (by simpa [holding_uninit hc] using hw))]
  | warmupWait hr hd => rw [moved (.warmupWait hr hc hd), hc]
  | warmupGo hr hd => rw [moved (.warmupGo hr hc hd)]
  | calTempOk hr hw he => rw [moved (.calTempOk hr hc (by simpa [holding_calTemp hc] using hw) he)]
  | calTempErr hr hw he =>
    rw [moved (.calTempErr hr hc (by simpa [holding_calTemp hc] using hw) he), Registers.raiseFatal_ctl]
  | sampleOk hr hw he => rw [moved (.sampleOk hr hc (by simpa [holding_calRead hc] using hw) he)]
  | sampleErr hr hw he =>
    rw [moved (.sampleErr hr hc (by simpa [holding_calRead hc] using hw) he), Registers.raiseFatal_ctl]
  | delayWait hr hd => rw [moved (.delayWait hr hc hd), hc]
  | delayMore hr hd hn => rw [moved (.delayMore hr hc hd (by omega))]
  | delayDone hr hd hn => rw [moved (.delayDone hr hc hd hn)]
  | finish hr => rw [moved (.finish hr hc), calFinishEffect]
  | idle hr hd => rw [moved (.idle hr hc hd), hc]
  | fire hr hd => rw [moved (.fire hr hc hd)]
  | accOk hr hw he => rw [moved (.accOk hr hc (by simpa [holding_tickAcc hc] using hw) he)]
  | accErr hr hw he => rw [moved (.accErr hr hc (by simpa [holding_tickAcc hc] using hw) he), Registers.raiseFatal_ctl]
  | tempOk hr hw he =>
    by_cases hn : s.tempCtr.toNat = 49
    · have hv : s.pins.tmpValid = true := by
        simpa [holding_tickTemp hc, (temperatureTick_build_iff s.toRegisters).mpr hn] using hw
      rw [moved (.tempOk hr hc hn hv (he (by omega)))]
    · rw [moved (.tempCount hr hc hn)]
  | tempErr hr hw hn he =>
    have hn' : s.tempCtr.toNat = 49 := by omega
    have hv : s.pins.tmpValid = true := by
      simpa [holding_tickTemp hc, (temperatureTick_build_iff s.toRegisters).mpr hn'] using hw
    rw [moved (.tempErr hr hc hn' hv he), Registers.raiseFatal_ctl]
  | procMore hr hk =>
    rw [moved (.proc hr hc (by omega)), afterProc_ctl, if_neg (by rw [build_samplesPerPacket]; omega)]
  | procFull hr hk =>
    rw [moved (.proc hr hc (by omega)), afterProc_ctl, if_pos (by rw [build_samplesPerPacket]; omega)]
  | encode hr => rw [moved (.encode hr hc), Registers.buildPacket_ctl]
  | txMore hr hw hi => rw [moved (.txMore hr hc (by simpa [holding_tx hc] using hw) hi), hc]
  | txLast hr hw hi => rw [moved (.txLast hr hc (by simpa [holding_tx hc] using hw) hi)]

/-! ## Events (20_memory.md R65, R67, R68, R78) -/

section
variable (t : U32) (x y z : I16) (err : Bool) (d : F32) (b : Byte)

@[simp] theorem kind_now : (Event.now t).isNow = true ∧ (Event.now t).isAcc = false ∧ (Event.now t).isTemp = false ∧
    (Event.now t).isTx = false ∧ (Event.now t).isInit = false := ⟨rfl, rfl, rfl, rfl, rfl⟩

@[simp] theorem kind_acc : (Event.acc x y z err).isNow = false ∧ (Event.acc x y z err).isAcc = true ∧
    (Event.acc x y z err).isTemp = false ∧ (Event.acc x y z err).isTx = false ∧
    (Event.acc x y z err).isInit = false := ⟨rfl, rfl, rfl, rfl, rfl⟩

@[simp] theorem kind_temp : (Event.temp d err).isNow = false ∧ (Event.temp d err).isAcc = false ∧
    (Event.temp d err).isTemp = true ∧ (Event.temp d err).isTx = false ∧ (Event.temp d err).isInit = false :=
  ⟨rfl, rfl, rfl, rfl, rfl⟩

@[simp] theorem kind_tx : (Event.tx b).isNow = false ∧ (Event.tx b).isAcc = false ∧ (Event.tx b).isTemp = false ∧
    (Event.tx b).isTx = true ∧ (Event.tx b).isInit = false := ⟨rfl, rfl, rfl, rfl, rfl⟩

@[simp] theorem kind_envInit : Event.envInit.isNow = false ∧ Event.envInit.isAcc = false ∧
    Event.envInit.isTemp = false ∧ Event.envInit.isTx = false ∧ Event.envInit.isInit = true :=
  ⟨rfl, rfl, rfl, rfl, rfl⟩

end

/-- Settles O27: the events of each move, counted by kind. -/
theorem eventsOfAStep : Obligations.EventsOfAStep := by
  unfold Obligations.EventsOfAStep
  intro s t h
  obtain ⟨e, hm, rfl⟩ := step_eq_next h
  refine ⟨e.events, rfl, ?_⟩
  cases hm with
  | reset hr => simp [hr]
  | held hr hw hi =>
    have hhold : s.holding = true := hw
    simp [hhold]
  | fatal hr hc => simp [hc]
  | init hr hc hv => simp [hr, hc, hv, holding_uninit hc]
  | calTempOk hr hc hv he | calTempErr hr hc hv he =>
    simp [hr, hc, hv, holding_calTemp hc]
  | sampleOk hr hc hv he | sampleErr hr hc hv he =>
    simp [hr, hc, hv, he, holding_calRead hc]
  | accOk hr hc hv he | accErr hr hc hv he =>
    simp [hr, hc, hv, holding_tickAcc hc]
  | txMore hr hc hv hi | txLast hr hc hv hi =>
    simp [hr, hc, hv, holding_tx hc]
  | warmupWait hr hc hd | warmupGo hr hc hd | delayWait hr hc hd | idle hr hc hd | fire hr hc hd | delayMore hr hc hd hn
  | delayDone hr hc hd hn | finish hr hc | proc hr hc hk | encode hr hc =>
    simp [hr, hc, holding_of_no_handshake, calFinishEffect]
  | tempCount hr hc hn => simp [hc, hn]
  | tempOk hr hc hn hv he | tempErr hr hc hn hv he =>
    simp [hr, hc, hn, hv, holding_tickTemp hc]

/-! ## The offsets while sampling (41_calibrator.md R124, R130) -/

/-- A `T_PROC` with the gate shut leaves `off_z`. -/
theorem gateOpen_of_off_z_ne {r : Registers build.windowN} (h : (r.trackOffset build).off.z ≠ r.off.z) :
    r.gateOpen build = true := by
  by_contra hshut
  rw [trackOffset_of_gateShut r hshut] at h
  exact h rfl

/-- Settles O39: of the moves of the Sampling phase only `T_PROC` writes an offset. -/
theorem horizontalOffsetsAreImmutable : Obligations.HorizontalOffsetsAreImmutable := by
  unfold Obligations.HorizontalOffsetsAreImmutable
  intro s t hs hlow h
  obtain ⟨e, hm, rfl⟩ := step_eq_next h
  rw [State.nextEdge_toRegisters, State.apply_toRegisters]
  cases hm with
  | reset hr => exact absurd (hlow.symm.trans hr) Bool.false_ne_true
  | finish hr hc => rw [hc] at hs; cases hs
  | proc hr hc hk =>
    obtain ⟨hx, hy⟩ := trackOffset_off_xy s.toRegisters
    refine ⟨hx, hy, fun hz => ?_⟩
    have hgate := gateOpen_of_off_z_ne hz
    rw [Registers.gateOpen, Bool.and_eq_true] at hgate
    exact ⟨hc, hgate⟩
  | held | fatal | init | warmupWait | warmupGo | calTempOk | calTempErr | sampleOk | sampleErr | delayWait | delayMore
  | delayDone | idle | fire | accOk | accErr | tempCount | tempOk | tempErr | encode | txMore | txLast =>
    exact ⟨rfl, rfl, fun hz => absurd rfl hz⟩

/-! ## The backlog (43_scheduler.md R168) -/

/-- Settles O42: the backlog is below `2^32`, so it is its own remainder, and it is due from one interval on. -/
theorem pollSeesTheBacklog : Obligations.PollSeesTheBacklog := by
  unfold Obligations.PollSeesTheBacklog
  intro a b k hle hlt
  have helapsed : (elapsed (BitVec.ofNat 32 (a + k * 20000)) (BitVec.ofNat 32 b)).toNat = b - (a + k * 20000) := by
    rw [elapsed_ofNat_toNat hle, Nat.mod_eq_of_lt hlt]
  refine ⟨helapsed, ?_⟩
  rw [due_build_iff, ← elapsed_toNat, helapsed]
  omega

end Sys2Proof.Machine

/-! The invariants that every step keeps (45_orchestrator.md R210, 10_state.md R36, R43): the ranges and the window
invariant, the registers written before they are read, the filter at reset while idle (70_reset_and_hazards.md R254), a
packet's bytes on the wire (20_memory.md R72). -/

namespace Sys2Proof.Machine

/-! ## Means of `i16` values (41_calibrator.md R120, R121, R125) -/

/-- The truncated mean of `n` values of the `i16` range is one. -/
theorem inI16_truncDiv {n : Nat} (hn : 0 < n) {v : Int} (h : SumOf n v) : InI16 (truncDiv v n) := by
  obtain ⟨hlo, hhi⟩ := h
  have hpos : (0 : Int) < n := by exact_mod_cast hn
  unfold InI16 truncDiv
  split_ifs with hv
  · have hnonneg : 0 ≤ v / n := Int.ediv_nonneg hv hpos.le
    have hle : v / n ≤ 32767 := Int.ediv_le_of_le_mul hpos hhi
    omega
  · have hnonneg : 0 ≤ -v / n := Int.ediv_nonneg (by omega) hpos.le
    have hle : -v / n ≤ 32768 := Int.ediv_le_of_le_mul hpos (by linarith)
    omega

theorem toInt_ofInt_of_inI16 {v : Int} (h : InI16 v) : (BitVec.ofInt 32 v).toInt = v := by
  obtain ⟨hlo, hhi⟩ := h
  exact BitVec.toInt_ofInt_eq_self (by decide) (by omega) (by omega)

theorem sumOf_list_sum {l : List Int} (h : ∀ v ∈ l, InI16 v) : SumOf l.length l.sum := by
  induction l with
  | nil => exact ⟨le_rfl, le_rfl⟩
  | cons v l ih =>
    obtain ⟨hlo, hhi⟩ := ih fun w hw => h w (List.mem_cons_of_mem v hw)
    obtain ⟨hvlo, hvhi⟩ := h v List.mem_cons_self
    rw [SumOf, List.length_cons, List.sum_cons, Nat.cast_succ]
    constructor <;> linarith

theorem inI16_windowMean {n : Nat} (hn : 0 < n) {w : Vector I32 n}
    (h : ∀ (i : Nat) (hi : i < n), InI16 w[i].toInt) : InI16 (windowMean w).toInt := by
  have hsum : SumOf n (w.toList.map BitVec.toInt).sum := by
    have hentries : ∀ v ∈ w.toList.map BitVec.toInt, InI16 v := by
      intro v hv
      obtain ⟨x, hx, rfl⟩ := List.mem_map.mp hv
      obtain ⟨i, hi, rfl⟩ := List.mem_iff_getElem.mp hx
      simpa using h i (by simpa using hi)
    simpa using sumOf_list_sum hentries
  have hmean := inI16_truncDiv hn hsum
  rwa [windowMean, toInt_ofInt_of_inI16 hmean]

theorem windowMean_replicate {n : Nat} (hn : 0 < n) (v : I32) : windowMean (Vector.replicate n v) = v := by
  have hsum : ((Vector.replicate n v).toList.map BitVec.toInt).sum = n * v.toInt := by simp
  have hne : (n : Int) ≠ 0 := by omega
  rw [windowMean_eq_tdiv, hsum, Int.mul_tdiv_cancel_left _ hne, BitVec.ofInt_toInt]

theorem inI16_calMean {v : I32} (h : SumOf 200 v.toInt) : InI16 (calMean build v).toInt := by
  have hmean := inI16_truncDiv (n := 200) (by decide) h
  rw [calMean, build_calibrationSamples, toInt_ofInt_of_inI16 hmean]
  exact hmean

theorem inI16_toInt (v : I16) : InI16 v.toInt := by
  have hlt := BitVec.toInt_lt (x := v)
  have hle := BitVec.le_toInt v
  constructor <;> omega

/-- One more reading in a sum (10_state.md R32): up to 200 of them, nothing wraps. -/
theorem sumOf_succ {n : Nat} {v : I32} (w : I16) (hn : n < 200) (h : SumOf n v.toInt) :
    SumOf (n + 1) (v + sext16 w).toInt := by
  obtain ⟨hlo, hhi⟩ := h
  obtain ⟨hwlo, hwhi⟩ := inI16_toInt w
  have hsum : (v + sext16 w).toInt = v.toInt + w.toInt := by
    rw [add_sext16]
    exact BitVec.toInt_ofInt_eq_self (by decide) (by omega) (by omega)
  rw [hsum]
  constructor <;> push_cast <;> linarith

/-! ## Slots of the buffers -/

theorem toNat_add_one {w : Nat} {b : BitVec w} (h : b.toNat + 1 < 2 ^ w) : (b + 1).toNat = b.toNat + 1 := by
  have hone : (1 : BitVec w).toNat = 1 := by
    show (BitVec.ofNat w 1).toNat = 1
    rw [BitVec.toNat_ofNat, Nat.mod_eq_of_lt (by omega)]
  rw [BitVec.toNat_add, hone, Nat.mod_eq_of_lt h]

theorem slotSatisfies_append {buf : Lanes Samples} {out : Lanes I32} {P : I32 → Prop} {k j : Nat} (hk : k < 5)
    (hj : j < 5) (hold : j ≠ k → SlotSatisfies buf P j hj) (hnew : P out.e ∧ P out.n ∧ P out.z) :
    SlotSatisfies (Lanes.zip (fun b v => b.set k v hk) buf out) P j hj := by
  by_cases h : j = k
  · subst h
    simpa [SlotSatisfies, Lanes.zip] using hnew
  · simpa [SlotSatisfies, Lanes.zip, Vector.getElem_set, Ne.symm h] using hold h

/-- After an append the filled slots are the old ones and the new one. -/
theorem filledSlots_append {buf : Lanes Samples} {out : Lanes I32} {P : I32 → Prop} {b : BitVec 3} (hb : b.toNat < 5)
    (hold : ∀ (j : Nat) (hj : j < 5), j < b.toNat → SlotSatisfies buf P j hj) (hnew : P out.e ∧ P out.n ∧ P out.z)
    (j : Nat) (hj : j < 5) (hlt : j < (b + 1).toNat) :
    SlotSatisfies (Lanes.zip (fun s v => s.set b.toNat v hb) buf out) P j hj := by
  rw [toNat_add_one (by omega)] at hlt
  exact slotSatisfies_append hb hj (fun hne => hold j hj (by omega)) hnew

/-! ## The ranges and the window invariant (R210, R36) -/

theorem inv_reset : (Registers.reset build).Inv where
  bufIdx_range := Nat.zero_le _
  bufIdx_full := ⟨nofun, nofun⟩
  txIdx_range := Nat.zero_le _
  tempCtr_range := Nat.zero_le _
  calCount_range := Nat.zero_le _
  fatal_cause := ⟨fun h => absurd rfl h, nofun⟩
  more_samples := nofun
  all_samples := nofun
  sums := by rintro (h | h | h) <;> cases h
  offsets := nofun
  window_entries := nofun
  window_mean := nofun
  last_range := ⟨⟨by decide, by decide⟩, ⟨by decide, by decide⟩, ⟨by decide, by decide⟩⟩
  slots := nofun

section
variable {r : Registers build.windowN} {p : Pins} {e : Effect build.windowN}

/-- A change of `ctl` alone, neither from nor to `ENCODE` or `FATAL`, keeps the invariant if what the new control state
asks for holds already. -/
theorem Registers.Inv.setCtl (hi : r.Inv) (c : Ctl) (hne : r.ctl ≠ .encode ∧ r.ctl ≠ .fatal)
    (hne' : c ≠ .encode ∧ c ≠ .fatal) (hmore : c = .calRead → r.calCount.toNat < 200)
    (hall : c = .calDone → r.calCount.toNat = 200)
    (hcal : c = .calRead ∨ c = .calDelay ∨ c = .calDone → r.ctl = .calRead ∨ r.ctl = .calDelay ∨ r.ctl = .calDone)
    (hsampling : c.sampling = true → r.ctl.sampling = true) : ({ r with ctl := c } : Registers build.windowN).Inv :=
  { hi with
    bufIdx_full := iff_of_false (mt hi.bufIdx_full.mp hne.1) hne'.1
    fatal_cause := iff_of_false (mt hi.fatal_cause.mp hne.2) hne'.2
    more_samples := hmore
    all_samples := hall
    sums := fun h => hi.sums (hcal h)
    offsets := fun h => hi.offsets (hsampling h)
    window_entries := fun h => hi.window_entries (hsampling h)
    window_mean := fun h => hi.window_mean (hsampling h)
    slots := fun h => hi.slots (hsampling h) }

/-- From one sampling state to another, neither of them `ENCODE`. -/
theorem Registers.Inv.setSampling (hi : r.Inv) (c : Ctl) (hs : r.ctl.sampling = true) (he : r.ctl ≠ .encode)
    (hs' : c.sampling = true) (he' : c ≠ .encode) : ({ r with ctl := c } : Registers build.windowN).Inv := by
  refine hi.setCtl c ⟨he, ?_⟩ ⟨he', ?_⟩ ?_ ?_ ?_ fun _ => hs
  · intro h; rw [h] at hs; cases hs
  · intro h; rw [h] at hs'; cases hs'
  · intro h; rw [h] at hs'; cases hs'
  · intro h; rw [h] at hs'; cases hs'
  · rintro (h | h | h) <;> rw [h] at hs' <;> cases hs'

theorem Registers.Inv.setLastTick (hi : r.Inv) (t : U32) : ({ r with lastTick := t } : Registers build.windowN).Inv :=
  { hi with }

theorem Registers.Inv.raiseFatal (hi : r.Inv) (he : r.ctl ≠ .encode) {x : FatalCause} (hx : x ≠ .none)
    (evs : List Event) : (r.raiseFatal x evs).regs.Inv :=
  { hi with
    bufIdx_full := iff_of_false (mt hi.bufIdx_full.mp he) nofun
    fatal_cause := iff_of_true hx rfl
    more_samples := nofun
    all_samples := nofun
    sums := by rintro (h | h | h) <;> cases h
    offsets := nofun
    window_entries := nofun
    window_mean := nofun
    slots := nofun }

/-- Outside `ENCODE` a slot is free. -/
theorem Registers.Inv.bufIdx_lt (hi : r.Inv) (he : r.ctl ≠ .encode) : r.bufIdx.toNat < 5 :=
  lt_of_le_of_ne hi.bufIdx_range (mt hi.bufIdx_full.mp he)

/-- Corrected values of an `i16` reading and an `i16` offset (45_orchestrator.md R203). -/
theorem inCorrected_correct (raw : I16) {off : I32} (h : InI16 off.toInt) : InCorrected (correct raw off).toInt := by
  obtain ⟨hlo, hhi⟩ := inI16_toInt raw
  obtain ⟨holo, hohi⟩ := h
  rw [correct_toInt raw off ⟨holo, hohi⟩]
  constructor <;> omega

theorem Registers.Inv.corrected_range (hi : r.Inv) (hs : r.ctl.sampling = true) :
    InCorrected r.corrected.e.toInt ∧ InCorrected r.corrected.n.toInt ∧ InCorrected r.corrected.z.toInt := by
  obtain ⟨hx, hy, hz⟩ := hi.offsets hs
  exact ⟨inCorrected_correct _ hx, inCorrected_correct _ hy, inCorrected_correct _ hz⟩

/-- The window, its mean and the offsets after step 2 of R202. -/
theorem Registers.Inv.trackOffset (hi : r.Inv) (hs : r.ctl.sampling = true) :
    (∀ (i : Nat) (h : i < build.windowN), InI16 (r.trackOffset build).window[i].toInt) ∧
    (r.trackOffset build).off.z = windowMean (r.trackOffset build).window ∧
    (InI16 (r.trackOffset build).off.x.toInt ∧ InI16 (r.trackOffset build).off.y.toInt ∧
      InI16 (r.trackOffset build).off.z.toInt) := by
  by_cases hg : r.gateOpen build = true
  · have hwindow : ∀ (i : Nat) (h : i < build.windowN), InI16 (windowPush r.window r.wrPos r.raw.z)[i].toInt := by
      intro i h
      rw [windowPush_getElem]
      split_ifs
      · rw [sext16_toInt]
        exact inI16_toInt _
      · exact hi.window_entries hs i h
    obtain ⟨hx, hy, -⟩ := hi.offsets hs
    rw [trackOffset_of_gateOpen r hg]
    exact ⟨hwindow, rfl, hx, hy, inI16_windowMean build.windowN_pos hwindow⟩
  · rw [trackOffset_of_gateShut r hg]
    exact ⟨hi.window_entries hs, hi.window_mean hs, hi.offsets hs⟩

theorem Registers.Inv.afterProc (hi : r.Inv) (hc : r.ctl = .tickProc) (hk : r.bufIdx.toNat < 5) :
    (r.afterProc build hk).Inv := by
  have hs : r.ctl.sampling = true := by rw [hc]; rfl
  have hidx : (r.bufIdx + 1).toNat = r.bufIdx.toNat + 1 := toNat_add_one (by omega)
  have hctl : (r.afterProc build hk).ctl = .encode ∧ r.bufIdx.toNat = 4 ∨
      (r.afterProc build hk).ctl = .poll ∧ r.bufIdx.toNat ≠ 4 := by
    rw [afterProc_ctl, build_samplesPerPacket]
    split_ifs with h
    · exact .inl ⟨rfl, by omega⟩
    · exact .inr ⟨rfl, by omega⟩
  obtain ⟨hentries, hmean, hoffsets⟩ := hi.trackOffset hs
  have hlast : InCorrected (r.runFilter build).last.e.toInt ∧ InCorrected (r.runFilter build).last.n.toInt ∧
      InCorrected (r.runFilter build).last.z.toInt := by
    cases hp : r.cfgHpf with
    | false => rw [runFilter_of_pass r hp]; exact hi.last_range
    | true => rw [runFilter_of_hpf r hp]; exact hi.corrected_range hs
  have hnot : ∀ {c : Ctl}, c ≠ .encode → c ≠ .poll → (r.afterProc build hk).ctl ≠ c := fun he hp h => by
    obtain ⟨h', -⟩ | ⟨h', -⟩ := hctl
    · exact he (h.symm.trans h')
    · exact hp (h.symm.trans h')
  exact
    { bufIdx_range := by rw [afterProc_bufIdx, hidx]; exact hk
      bufIdx_full := by
        rw [afterProc_bufIdx, hidx]
        obtain ⟨h, h4⟩ | ⟨h, h4⟩ := hctl
        · rw [h, h4]; exact iff_of_true rfl rfl
        · rw [h]; exact iff_of_false (by omega) nofun
      txIdx_range := hi.txIdx_range
      tempCtr_range := hi.tempCtr_range
      calCount_range := hi.calCount_range
      fatal_cause := iff_of_false (mt hi.fatal_cause.mp (by rw [hc]; exact nofun)) (hnot nofun nofun)
      more_samples := fun h => absurd h (hnot nofun nofun)
      all_samples := fun h => absurd h (hnot nofun nofun)
      sums := by rintro (h | h | h) <;> exact absurd h (hnot nofun nofun)
      offsets := fun _ => hoffsets
      window_entries := fun _ => hentries
      window_mean := fun _ => hmean
      last_range := hlast
      slots := by
        intro _ hp
        rw [afterProc_cfgHpf] at hp
        rw [afterProc_buf, afterProc_bufIdx, tickOut_of_pass r hp]
        exact filledSlots_append hk (hi.slots hs hp) (hi.corrected_range hs) }

theorem Registers.Inv.calFinish (hi : r.Inv) (hc : r.ctl = .calDone) : (calFinishEffect build r p).regs.Inv := by
  have hcount := hi.all_samples hc
  obtain ⟨hx, hy, hz⟩ := hi.sums (.inr (.inr hc))
  rw [hcount] at hx hy hz
  exact
    { hi with
      bufIdx_range := Nat.zero_le _
      bufIdx_full := ⟨nofun, nofun⟩
      tempCtr_range := Nat.zero_le _
      fatal_cause := iff_of_false (mt hi.fatal_cause.mp (by rw [hc]; exact nofun)) nofun
      more_samples := nofun
      all_samples := nofun
      sums := by rintro (h | h | h) <;> cases h
      offsets := fun _ => ⟨inI16_calMean hx, inI16_calMean hy, inI16_calMean hz⟩
      window_entries := by
        intro _ i hlt
        simpa [calFinishEffect] using inI16_calMean hz
      window_mean := fun _ => (windowMean_replicate build.windowN_pos _).symm
      slots := fun _ _ _ _ h => absurd h (Nat.not_lt_zero _) }

theorem Registers.Inv.calTempOk (hi : r.Inv) (hc : r.ctl = .calTemp) (t : F32) (w : Written) :
    ({ r with calibTemp := t, sum := { x := 0, y := 0, z := 0 }, calCount := 0, ctl := .calRead, written := w } :
      Registers build.windowN).Inv :=
  { hi with
    bufIdx_full := iff_of_false (mt hi.bufIdx_full.mp (by rw [hc]; exact nofun)) nofun
    calCount_range := Nat.zero_le _
    fatal_cause := iff_of_false (mt hi.fatal_cause.mp (by rw [hc]; exact nofun)) nofun
    more_samples := fun _ => Nat.zero_lt_succ 199
    all_samples := nofun
    sums := fun _ => ⟨⟨le_rfl, le_rfl⟩, ⟨le_rfl, le_rfl⟩, le_rfl, le_rfl⟩
    offsets := nofun
    window_entries := nofun
    window_mean := nofun
    slots := nofun }

theorem Registers.Inv.sampleOk (hi : r.Inv) (hc : r.ctl = .calRead) (v : XYZ I16) (t : U32) (w : Written) :
    ({ r with
        sum := { x := r.sum.x + sext16 v.x, y := r.sum.y + sext16 v.y, z := r.sum.z + sext16 v.z }
        calCount := r.calCount + 1
        delayStart := t
        ctl := .calDelay
        written := w } : Registers build.windowN).Inv := by
  have hless := hi.more_samples hc
  have hcount : (r.calCount + 1).toNat = r.calCount.toNat + 1 := toNat_add_one (by omega)
  obtain ⟨hx, hy, hz⟩ := hi.sums (.inl hc)
  exact
    { hi with
      bufIdx_full := iff_of_false (mt hi.bufIdx_full.mp (by rw [hc]; exact nofun)) nofun
      calCount_range := by
        show (r.calCount + 1).toNat ≤ 200
        omega
      fatal_cause := iff_of_false (mt hi.fatal_cause.mp (by rw [hc]; exact nofun)) nofun
      more_samples := nofun
      all_samples := nofun
      sums := fun _ => by
        show SumOf (r.calCount + 1).toNat _ ∧ SumOf (r.calCount + 1).toNat _ ∧ SumOf (r.calCount + 1).toNat _
        rw [hcount]
        exact ⟨sumOf_succ _ hless hx, sumOf_succ _ hless hy, sumOf_succ _ hless hz⟩
      offsets := nofun
      window_entries := nofun
      window_mean := nofun
      slots := nofun }

theorem Registers.Inv.buildPacket (hi : r.Inv) (hc : r.ctl = .encode) (z e n : Samples) :
    (r.buildPacket build z e n).Inv := by
  have hs : r.ctl.sampling = true := by rw [hc]; rfl
  exact
    { hi with
      bufIdx_range := Nat.zero_le _
      bufIdx_full := ⟨nofun, nofun⟩
      txIdx_range := Nat.zero_le _
      fatal_cause := iff_of_false (mt hi.fatal_cause.mp (by rw [hc]; exact nofun)) nofun
      more_samples := nofun
      all_samples := nofun
      sums := by rintro (h | h | h) <;> cases h
      offsets := fun _ => hi.offsets hs
      window_entries := fun _ => hi.window_entries hs
      window_mean := fun _ => hi.window_mean hs
      slots := fun _ _ _ _ h => absurd h (Nat.not_lt_zero _) }

theorem inv_of_move (hi : r.Inv) (hm : Move r p e) : e.regs.Inv := by
  cases hm with
  | reset => exact inv_reset
  | held | fatal | warmupWait | delayWait | idle => exact hi
  | init hr hc hv =>
    exact { hi.setCtl .warmup (by simp [hc]) (by simp) nofun nofun (by simp) nofun with slots := nofun }
  | warmupGo hr hc hd => exact hi.setCtl .calTemp (by simp [hc]) (by simp) nofun nofun (by simp) nofun
  | calTempOk hr hc hv he => exact hi.calTempOk hc _ _
  | calTempErr hr hc hv he => exact hi.raiseFatal (by simp [hc]) (by decide) _
  | sampleOk hr hc hv he => exact hi.sampleOk hc { x := p.accX, y := p.accY, z := p.accZ } _ _
  | sampleErr hr hc hv he => exact hi.raiseFatal (by simp [hc]) (by decide) _
  | delayMore hr hc hd hn =>
    exact hi.setCtl .calRead (by simp [hc]) (by simp) (fun _ => lt_of_le_of_ne hi.calCount_range hn) nofun
      (by simp [hc]) nofun
  | delayDone hr hc hd hn =>
    exact hi.setCtl .calDone (by simp [hc]) (by simp) nofun (fun _ => hn) (by simp [hc]) nofun
  | finish hr hc => exact hi.calFinish hc
  | fire hr hc hd => exact (hi.setSampling .tickAcc (by simp [hc, Ctl.sampling]) (by simp [hc]) rfl nofun).setLastTick _
  | accOk hr hc hv he => exact { hi.setSampling .tickTemp (by simp [hc, Ctl.sampling]) (by simp [hc]) rfl nofun with }
  | accErr hr hc hv he => exact hi.raiseFatal (by simp [hc]) (by decide) _
  | tempCount hr hc hn =>
    have hcount : (r.tempCtr + 1).toNat ≤ 49 := by
      have hrange := hi.tempCtr_range
      rw [toNat_add_one (by omega)]
      omega
    exact
      { hi.setSampling .tickProc (by simp [hc, Ctl.sampling]) (by simp [hc]) rfl nofun with tempCtr_range := hcount }
  | tempOk hr hc hn hv he =>
    exact
      { hi.setSampling .tickProc (by simp [hc, Ctl.sampling]) (by simp [hc]) rfl nofun with
        tempCtr_range := Nat.zero_le _ }
  | tempErr hr hc hn hv he => exact hi.raiseFatal (by simp [hc]) (by decide) _
  | proc hr hc hk => exact hi.afterProc hc hk
  | encode hr hc => exact hi.buildPacket hc _ _ _
  | txMore hr hc hv hlt =>
    have hidx : (BitVec.ofNat 7 (r.txIdx.toNat + 1)).toNat ≤ 65 := by
      rw [BitVec.toNat_ofNat]
      omega
    exact { hi with txIdx_range := hidx }
  | txLast hr hc hv hlast => exact hi.setSampling .poll (by simp [hc, Ctl.sampling]) (by simp [hc]) rfl nofun

end

/-- Settles O54: by the moves; the sums need their count, the offsets the sums, the corrected values the offsets. -/
theorem stepKeepsTheInvariant : Obligations.StepKeepsTheInvariant := by
  unfold Obligations.StepKeepsTheInvariant
  intro s t hi h
  obtain ⟨e, hm, rfl⟩ := step_eq_next h
  exact inv_of_move hi hm

/-- Only the two index values of log 12 stop an edge. -/
theorem exists_move {r : Registers build.windowN} (p : Pins) (hslot : r.ctl = .tickProc → r.bufIdx.toNat < 5)
    (hbyte : r.ctl = .tx → r.txIdx.toNat < 66) : ∃ e, Move r p e := by
  cases hr : p.rst with
  | true => exact ⟨_, .reset hr⟩
  | false =>
    cases hc : r.ctl with
    | fatal => exact ⟨_, .fatal hr hc⟩
    | tickProc => exact ⟨_, .proc hr hc (hslot hc)⟩
    | tx =>
      have hsend : coreStep build r p = .next (sendByte build r p (r.pkt[r.txIdx.toNat]'(hbyte hc))) := by
        rw [coreStep_of_ctl hr hc rfl, operate, txByteEffect_of_byte (hbyte hc)]
      exact ⟨_, move_of_coreStep hsend⟩
    | uninit | warmup | calTemp | calRead | calDelay | calDone | poll | tickAcc | tickTemp | encode =>
      exact ⟨_, move_of_coreStep (coreStep_of_ctl hr hc rfl)⟩

theorem Registers.Inv.exists_move {r : Registers build.windowN} (hi : r.Inv) (p : Pins) : ∃ e, Move r p e :=
  Machine.exists_move p (fun hc => hi.bufIdx_lt (by simp [hc])) (fun _ => Nat.lt_succ_of_le hi.txIdx_range)

/-- Settles O55: the invariant bounds the two indices. -/
theorem stepNeverStopsUnderTheInvariant : Obligations.StepNeverStopsUnderTheInvariant := by
  unfold Obligations.StepNeverStopsUnderTheInvariant
  intro s hi
  obtain ⟨e, hm⟩ := hi.exists_move s.pins
  exact ⟨_, step_of_move hm⟩

end Sys2Proof.Machine

/-! More that every step keeps: registers written before they are read (10_state.md R43), the filter at reset while idle
(70_reset_and_hazards.md R254), a packet's bytes on the wire (20_memory.md R72), and that values of unwritten registers
never matter (70_reset_and_hazards.md R271). -/

namespace Sys2Proof.Machine

/-! ## Written before read (R43) -/

theorem writtenInv_reset : (Registers.reset build).WrittenInv where
  straps := fun h => absurd rfl h
  delayStart := by rintro (h | h) <;> cases h
  calibrating := by rintro (h | h | h) <;> cases h
  sampling := nofun
  raw := by rintro (h | h) <;> cases h
  slots := nofun
  full := nofun
  pkt := nofun

section
variable {r : Registers build.windowN} {p : Pins} {e : Effect build.windowN}

/-- A change of `ctl` alone keeps the property if what the new control state's operation reads is written. -/
theorem Registers.WrittenInv.setCtl (hw : r.WrittenInv) (c : Ctl) (hstraps : r.written.straps = true)
    (hdelay : c = .warmup ∨ c = .calDelay → r.written.delayStart = true)
    (hcal : c = .calRead ∨ c = .calDelay ∨ c = .calDone → r.written.calibTemp = true ∧ r.written.sums = true)
    (hsampling : c.sampling = true → r.ctl.sampling = true)
    (hraw : c = .tickTemp ∨ c = .tickProc → r.written.raw = true) (hfull : c = .encode → r.bufIdx.toNat = 5)
    (hpkt : c = .tx → r.written.pkt = true) : ({ r with ctl := c } : Registers build.windowN).WrittenInv where
  straps := fun _ _ => hstraps
  delayStart := hdelay
  calibrating := hcal
  sampling := fun h => hw.sampling (hsampling h)
  raw := hraw
  slots := fun h => hw.slots (hsampling h)
  full := hfull
  pkt := hpkt

theorem Registers.WrittenInv.setLastTick (hw : r.WrittenInv) (t : U32) :
    ({ r with lastTick := t } : Registers build.windowN).WrittenInv := { hw with }

theorem Registers.WrittenInv.raiseFatal (x : FatalCause) (evs : List Event) :
    (r.raiseFatal x evs).regs.WrittenInv where
  straps := fun _ h => absurd rfl h
  delayStart := by rintro (h | h) <;> cases h
  calibrating := by rintro (h | h | h) <;> cases h
  sampling := nofun
  raw := by rintro (h | h) <;> cases h
  slots := nofun
  full := nofun
  pkt := nofun

theorem Registers.WrittenInv.straps_of_ctl (hw : r.WrittenInv) {c : Ctl} (hc : r.ctl = c) (hu : c ≠ .uninit)
    (hf : c ≠ .fatal) : r.written.straps = true := hw.straps (hc ▸ hu) (hc ▸ hf)

/-- After an append one slot more is written. -/
theorem writtenSlots_append {w : Vector Bool 5} {b : BitVec 3} (hb : b.toNat < 5)
    (hold : ∀ (j : Nat) (hj : j < 5), j < b.toNat → w[j] = true) (j : Nat) (hj : j < 5) (hlt : j < (b + 1).toNat) :
    (w.set b.toNat true hb)[j] = true := by
  rw [toNat_add_one (by omega)] at hlt
  rw [Vector.getElem_set]
  split_ifs with h
  · rfl
  · exact hold j hj (by omega)

theorem Registers.WrittenInv.afterProc (hw : r.WrittenInv) (hc : r.ctl = .tickProc) (hk : r.bufIdx.toNat < 5) :
    (r.afterProc build hk).WrittenInv := by
  have hs : r.ctl.sampling = true := by rw [hc]; rfl
  have hctl : (r.afterProc build hk).ctl = .encode ∧ r.bufIdx.toNat = 4 ∨ (r.afterProc build hk).ctl = .poll := by
    rw [afterProc_ctl, build_samplesPerPacket]
    split_ifs with h
    · exact .inl ⟨rfl, by omega⟩
    · exact .inr rfl
  have hnot : ∀ {c : Ctl}, c ≠ .encode → c ≠ .poll → (r.afterProc build hk).ctl ≠ c := fun he hp h => by
    obtain ⟨h', -⟩ | h' := hctl
    · exact he (h.symm.trans h')
    · exact hp (h.symm.trans h')
  exact
    { straps := fun _ _ => hw.straps_of_ctl hc nofun nofun
      delayStart := by rintro (h | h) <;> exact absurd h (hnot nofun nofun)
      calibrating := by rintro (h | h | h) <;> exact absurd h (hnot nofun nofun)
      sampling := fun _ => hw.sampling hs
      raw := by rintro (h | h) <;> exact absurd h (hnot nofun nofun)
      slots := fun _ => writtenSlots_append hk (hw.slots hs)
      full := by
        intro h
        obtain ⟨-, h4⟩ | h' := hctl
        · rw [afterProc_bufIdx, toNat_add_one (by omega), h4]
        · rw [h'] at h; cases h
      pkt := fun h => absurd h (hnot nofun nofun) }

theorem writtenInv_of_move (hw : r.WrittenInv) (hm : Move r p e) : e.regs.WrittenInv := by
  cases hm with
  | reset => exact writtenInv_reset
  | held | fatal | warmupWait | delayWait | idle => exact hw
  | calTempErr | sampleErr | accErr | tempErr => exact .raiseFatal _ _
  | init hr hc hv =>
    exact
      { straps := fun _ _ => rfl
        delayStart := fun _ => rfl
        calibrating := by rintro (h | h | h) <;> cases h
        sampling := nofun
        raw := by rintro (h | h) <;> cases h
        slots := nofun
        full := nofun
        pkt := nofun }
  | warmupGo hr hc hd =>
    exact hw.setCtl .calTemp (hw.straps_of_ctl hc nofun nofun) (by simp) (by simp) nofun (by simp) nofun nofun
  | calTempOk hr hc hv he =>
    exact
      { straps := fun _ _ => hw.straps_of_ctl hc nofun nofun
        delayStart := by rintro (h | h) <;> cases h
        calibrating := fun _ => ⟨rfl, rfl⟩
        sampling := nofun
        raw := by rintro (h | h) <;> cases h
        slots := nofun
        full := nofun
        pkt := nofun }
  | sampleOk hr hc hv he =>
    obtain ⟨hcalib, -⟩ := hw.calibrating (.inl hc)
    exact
      { straps := fun _ _ => hw.straps_of_ctl hc nofun nofun
        delayStart := fun _ => rfl
        calibrating := fun _ => ⟨hcalib, rfl⟩
        sampling := nofun
        raw := by rintro (h | h) <;> cases h
        slots := nofun
        full := nofun
        pkt := nofun }
  | delayMore hr hc hd hn =>
    exact hw.setCtl .calRead (hw.straps_of_ctl hc nofun nofun) (by simp)
        (fun _ => hw.calibrating (.inr (.inl hc))) nofun
      (by simp) nofun nofun
  | delayDone hr hc hd hn =>
    exact hw.setCtl .calDone (hw.straps_of_ctl hc nofun nofun) (by simp)
        (fun _ => hw.calibrating (.inr (.inl hc))) nofun
      (by simp) nofun nofun
  | finish hr hc =>
    exact
      { straps := fun _ _ => hw.straps_of_ctl hc nofun nofun
        delayStart := by rintro (h | h) <;> cases h
        calibrating := by rintro (h | h | h) <;> cases h
        sampling := fun _ => ⟨rfl, rfl, rfl⟩
        raw := by rintro (h | h) <;> cases h
        slots := fun _ _ _ h => absurd h (Nat.not_lt_zero _)
        full := nofun
        pkt := nofun }
  | fire hr hc hd =>
    exact (hw.setCtl .tickAcc (hw.straps_of_ctl hc nofun nofun) (by simp) (by simp) (fun _ => by rw [hc]; rfl)
      (by simp) nofun nofun).setLastTick _
  | accOk hr hc hv he =>
    have hs : r.ctl.sampling = true := by rw [hc]; rfl
    exact
      { straps := fun _ _ => hw.straps_of_ctl hc nofun nofun
        delayStart := by rintro (h | h) <;> cases h
        calibrating := by rintro (h | h | h) <;> cases h
        sampling := fun _ => hw.sampling hs
        raw := fun _ => rfl
        slots := fun _ => hw.slots hs
        full := nofun
        pkt := nofun }
  | tempCount hr hc hn | tempOk hr hc hn hv he =>
    exact
      { hw.setCtl .tickProc (hw.straps_of_ctl hc nofun nofun) (by simp) (by simp) (fun _ => by rw [hc]; rfl)
          (fun _ => hw.raw (.inl hc)) nofun nofun with }
  | proc hr hc hk => exact hw.afterProc hc hk
  | encode hr hc =>
    have hs : r.ctl.sampling = true := by rw [hc]; rfl
    exact
      { straps := fun _ _ => hw.straps_of_ctl hc nofun nofun
        delayStart := by rintro (h | h) <;> cases h
        calibrating := by rintro (h | h | h) <;> cases h
        sampling := fun _ => hw.sampling hs
        raw := by rintro (h | h) <;> cases h
        slots := fun _ _ _ h => absurd h (Nat.not_lt_zero _)
        full := nofun
        pkt := fun _ => rfl }
  | txMore hr hc hv hi => exact { hw with }
  | txLast hr hc hv hi =>
    exact hw.setCtl .poll (hw.straps_of_ctl hc nofun nofun) (by simp) (by simp) (fun _ => by rw [hc]; rfl)
        (by simp) nofun
      nofun

end

/-- Settles O56: by the moves; each sets the flags of what the operations after it read. -/
theorem stepKeepsRegistersWrittenBeforeRead : Obligations.StepKeepsRegistersWrittenBeforeRead := by
  unfold Obligations.StepKeepsRegistersWrittenBeforeRead
  intro s t hw h
  obtain ⟨e, hm, rfl⟩ := step_eq_next h
  exact writtenInv_of_move hw hm

/-! ## The idle filter (R254) -/

theorem filterIdle_of_move {r : Registers build.windowN} {p : Pins} {e : Effect build.windowN} (hidle : r.FilterIdle)
    (hm : Move r p e) : e.regs.FilterIdle := by
  unfold Registers.FilterIdle at *
  cases hm with
  | reset => exact fun _ => ⟨rfl, rfl⟩
  | held | fatal | warmupWait | delayWait | idle | txMore => exact hidle
  | init hr hc hv => exact fun _ => hidle (.inl hc)
  | warmupGo hr hc | calTempOk hr hc | calTempErr hr hc | sampleOk hr hc | sampleErr hr hc | delayMore hr hc
  | delayDone hr hc | finish hr hc =>
    exact fun _ => hidle (.inr (.inr (by simp [hc, Ctl.sampling])))
  | fire | accOk | tempCount | tempOk | encode | txLast =>
    rintro (h | h | ⟨h, -⟩)
    · cases h
    · exact hidle (.inr (.inl h))
    · cases h
  | accErr | tempErr =>
    rintro (h | h | ⟨-, h⟩)
    · cases h
    · exact hidle (.inr (.inl h))
    · exact absurd rfl h
  | proc hr hc hk =>
    intro h
    have hpass : r.cfgHpf = false := by
      obtain h | h | ⟨h, -⟩ := h
      · rw [afterProc_ctl] at h
        split at h <;> cases h
      · exact h
      · rw [afterProc_ctl] at h
        split at h <;> cases h
    rw [Registers.FilterAtReset, afterProc_filt, afterProc_last, runFilter_of_pass r hpass]
    exact hidle (.inr (.inl hpass))

/-- Settles O59: only `T_PROC` writes the filter registers, and only with `cfg_hpf = 1`. -/
theorem filterStaysAtResetWhileIdle : Obligations.FilterStaysAtResetWhileIdle := by
  unfold Obligations.FilterStaysAtResetWhileIdle
  intro s t hidle h
  obtain ⟨e, hm, rfl⟩ := step_eq_next h
  exact filterIdle_of_move hidle hm

/-! ## A packet on the wire (R72) -/

/-- The bytes before an index and the byte there are the bytes before the next index. -/
theorem map_tx_take_succ (v : Packet) (k : Nat) (hk : k < 66) :
    (v.toList.take (k + 1)).map Event.tx = (v.toList.take k).map Event.tx ++ [.tx v[k]] := by
  rw [List.take_succ_eq_append_getElem (by simpa using hk), List.map_append, List.map_singleton, Vector.getElem_toList]

/-- Settles O60: `TX_BYTE` alone moves within `TX`, and adds the byte at `tx_idx`. -/
theorem packetBytesAreConsecutiveOnTheWire : Obligations.PacketBytesAreConsecutiveOnTheWire := by
  unfold Obligations.PacketBytesAreConsecutiveOnTheWire
  intro s t hwire h
  obtain ⟨e, hm, rfl⟩ := step_eq_next h
  cases hm with
  | txMore hr hc hv hi =>
    obtain ⟨before, htrace⟩ := hwire hc
    refine ⟨fun _ => ⟨before, ?_⟩, fun _ h => absurd (hc.symm.trans h) nofun⟩
    have hidx : (BitVec.ofNat 7 (s.txIdx.toNat + 1)).toNat = s.txIdx.toNat + 1 := by
      rw [BitVec.toNat_ofNat]
      omega
    show s.trace ++ _ = before ++ (s.pkt.toList.take (BitVec.ofNat 7 (s.txIdx.toNat + 1)).toNat).map Event.tx
    rw [hidx, map_tx_take_succ _ _ (by omega), htrace, List.append_assoc]
  | txLast hr hc hv hi =>
    obtain ⟨before, htrace⟩ := hwire hc
    refine ⟨nofun, fun _ _ => ⟨before, ?_⟩⟩
    have hall : s.pkt.toList = s.pkt.toList.take (65 + 1) := by rw [List.take_of_length_le (by simp)]
    show s.trace ++ _ = _
    rw [hall, map_tx_take_succ _ _ (by omega), htrace, hi, List.append_assoc]
  | held hr hw hi =>
    rw [apply_hold]
    exact ⟨hwire, fun hc hp => absurd (hc.symm.trans hp) nofun⟩
  | encode hr hc =>
    refine ⟨fun _ => ⟨s.trace, ?_⟩, fun h => absurd (hc.symm.trans h) nofun⟩
    show s.trace ++ [] = s.trace ++ _
    simp
  | proc hr hc hk =>
    refine ⟨fun h => ?_, fun h => absurd (hc.symm.trans h) nofun⟩
    rw [State.nextEdge_toRegisters, State.apply_toRegisters, afterProc_ctl] at h
    split at h <;> cases h
  | reset => exact ⟨nofun, fun _ => nofun⟩
  | fatal hr hc | warmupWait hr hc | delayWait hr hc | idle hr hc =>
    exact ⟨fun h => absurd (hc.symm.trans h) nofun, fun h => absurd (hc.symm.trans h) nofun⟩
  | init hr hc | warmupGo hr hc | calTempOk hr hc | calTempErr hr hc | sampleOk hr hc | sampleErr hr hc
  | delayMore hr hc
  | delayDone hr hc | finish hr hc | fire hr hc | accOk hr hc | accErr hr hc | tempCount hr hc | tempOk hr hc
  | tempErr hr hc =>
    exact ⟨nofun, fun h => absurd (hc.symm.trans h) nofun⟩

/-! ## The state after reset -/

theorem filterBounded_reset : (Registers.reset build).FilterBounded :=
  ⟨⟨⟨rfl, Nat.zero_le _⟩, ⟨rfl, Nat.zero_le _⟩, rfl, Nat.zero_le _⟩, nofun⟩

/-- Settles O53: the registers that have reset values are in their ranges, and `ctl = UNINIT` asks for no others. -/
theorem resetStateMeetsTheInvariants : Obligations.ResetStateMeetsTheInvariants := by
  unfold Obligations.ResetStateMeetsTheInvariants
  exact ⟨inv_reset, writtenInv_reset, fun _ => ⟨rfl, rfl⟩, filterBounded_reset, nofun⟩

/-! ## Values of unwritten registers (R271) -/

section
variable {c : Config} {r r' : Registers c.windowN}

theorem corrected_congr (hraw : r.raw = r'.raw) (hoff : r.off = r'.off) : r.corrected = r'.corrected := by
  rw [Registers.corrected, Registers.corrected, hraw, hoff]

/-- What step 2 of R202 reads. -/
theorem trackOffset_congr (hdyn : r.cfgDyn = r'.cfgDyn) (hraw : r.raw = r'.raw) (hoff : r.off = r'.off)
    (hwindow : r.window = r'.window) (hpos : r.wrPos = r'.wrPos) :
    (r.trackOffset c).window = (r'.trackOffset c).window ∧ (r.trackOffset c).wrPos = (r'.trackOffset c).wrPos ∧
      (r.trackOffset c).off = (r'.trackOffset c).off := by
  have hgate : r.gateOpen c = r'.gateOpen c := by
    rw [Registers.gateOpen, Registers.gateOpen, hdyn, corrected_congr hraw hoff]
  by_cases hg : r'.gateOpen c = true
  · rw [trackOffset_of_gateOpen r (hgate.trans hg), trackOffset_of_gateOpen r' hg]
    simp only [hraw, hoff, hwindow, hpos, and_self]
  · rw [trackOffset_of_gateShut r (by rwa [hgate]), trackOffset_of_gateShut r' hg]
    exact ⟨hwindow, hpos, hoff⟩

theorem hpfLanes_congr (hfilt : r.filt = r'.filt) (hlast : r.last = r'.last) (hraw : r.raw = r'.raw)
    (hoff : r.off = r'.off) : r.hpfLanes c = r'.hpfLanes c := by
  rw [Registers.hpfLanes, Registers.hpfLanes, hfilt, hlast, corrected_congr hraw hoff]

/-- What step 3 of R202 reads. -/
theorem runFilter_congr (hhpf : r.cfgHpf = r'.cfgHpf) (hfilt : r.filt = r'.filt) (hlast : r.last = r'.last)
    (hraw : r.raw = r'.raw) (hoff : r.off = r'.off) :
    (r.runFilter c).filt = (r'.runFilter c).filt ∧ (r.runFilter c).last = (r'.runFilter c).last ∧
      r.tickOut c = r'.tickOut c := by
  have hlanes := hpfLanes_congr hfilt hlast hraw hoff
  have hcorrected := corrected_congr hraw hoff
  cases hp : r'.cfgHpf with
  | false =>
    have hp' := hhpf.trans hp
    rw [runFilter_of_pass r hp', runFilter_of_pass r' hp, tickOut_of_pass r hp', tickOut_of_pass r' hp]
    exact ⟨hfilt, hlast, hcorrected⟩
  | true =>
    have hp' := hhpf.trans hp
    rw [runFilter_of_hpf r hp', runFilter_of_hpf r' hp, tickOut_of_hpf r hp', tickOut_of_hpf r' hp, hlanes, hcorrected]
    exact ⟨rfl, rfl, rfl⟩

end

theorem Lanes.eq_of_lanes {α : Type} {u v : Lanes α} (he : u.e = v.e) (hn : u.n = v.n) (hz : u.z = v.z) : u = v := by
  cases u
  cases v
  simp_all

section
variable {s s' : State}

/-- The states with other registers. -/
abbrev State.withRegs (s : State) (r : Registers build.windowN) : State := { s with toRegisters := r }

theorem AgreeWritten.pins_eq (ha : AgreeWritten s s') : s'.pins = s.pins :=
  pins_eq_of_inputs ha.inputs.symm ha.cycle.symm

/-- Agreeing registers and the same events: the edge leaves agreeing states. -/
theorem AgreeWritten.edge {e e' : Effect build.windowN} (ha : AgreeWritten s s') (hev : e.events = e'.events)
    (hregs : AgreeWritten (s.withRegs e.regs) (s'.withRegs e'.regs)) :
    AgreeWritten (s.apply e).nextEdge (s'.apply e').nextEdge :=
  { hregs with
    inputs := congrArg List.tail ha.inputs
    cycle := congrArg (· + 1) ha.cycle
    trace := congrArg₂ (· ++ ·) ha.trace hev }

theorem AgreeWritten.setCtl (ha : AgreeWritten s s') (c : Ctl) :
    AgreeWritten (s.withRegs { s.toRegisters with ctl := c }) (s'.withRegs { s'.toRegisters with ctl := c }) :=
  { ha with ctl := rfl }

theorem AgreeWritten.setLastTick (ha : AgreeWritten s s') {t t' : U32} (h : t = t') :
    AgreeWritten (s.withRegs { s.toRegisters with lastTick := t })
        (s'.withRegs { s'.toRegisters with lastTick := t' }) :=
  { ha with lastTick := fun _ => h }

theorem AgreeWritten.raiseFatal (ha : AgreeWritten s s') (x : FatalCause) (evs : List Event) :
    AgreeWritten (s.withRegs (s.toRegisters.raiseFatal x evs).regs)
      (s'.withRegs (s'.toRegisters.raiseFatal x evs).regs) :=
  { ha with ctl := rfl, fatalCause := rfl }

/-- In `ENCODE` all five slots are written, so the buffers agree. -/
theorem AgreeWritten.buf_eq (ha : AgreeWritten s s') (hw : s.WrittenInv) (hc : s.ctl = .encode) : s.buf = s'.buf := by
  have hs : s.ctl.sampling = true := by rw [hc]; rfl
  have hslot : ∀ (k : Nat) (hk : k < 5), s.buf.e[k] = s'.buf.e[k] ∧ s.buf.n[k] = s'.buf.n[k] ∧
      s.buf.z[k] = s'.buf.z[k] :=
    fun k hk => ha.slots k hk (hw.slots hs k hk (by rw [hw.full hc]; exact hk))
  exact Lanes.eq_of_lanes (Vector.ext fun k hk => (hslot k hk).1) (Vector.ext fun k hk => (hslot k hk).2.1)
    (Vector.ext fun k hk => (hslot k hk).2.2)

/-- The buffers after both states have appended the same values to the same slot, which is now written. -/
theorem AgreeWritten.slots_append (ha : AgreeWritten s s') {out : Lanes I32} {b : Nat} (hb : b < 5) (k : Nat)
    (hk : k < 5) (h : (s.written.slots.set b true hb)[k] = true) :
    (s.buf.e.set b out.e hb)[k] = (s'.buf.e.set b out.e hb)[k] ∧
      (s.buf.n.set b out.n hb)[k] = (s'.buf.n.set b out.n hb)[k] ∧
      (s.buf.z.set b out.z hb)[k] = (s'.buf.z.set b out.z hb)[k] := by
  simp only [Vector.getElem_set] at h ⊢
  split_ifs at h ⊢ with hbk
  · exact ⟨rfl, rfl, rfl⟩
  · exact ha.slots k hk h

theorem AgreeWritten.afterProc (ha : AgreeWritten s s') (hw : s.WrittenInv) (hc : s.ctl = .tickProc)
    (hk : s.bufIdx.toNat < 5) (hk' : s'.bufIdx.toNat < 5) :
    AgreeWritten (s.withRegs (s.toRegisters.afterProc build hk))
        (s'.withRegs (s'.toRegisters.afterProc build hk')) := by
  obtain ⟨hhpf, hdyn⟩ := ha.straps (hw.straps_of_ctl hc nofun nofun)
  obtain ⟨hoffW, hwindowW, -⟩ := hw.sampling (by rw [hc]; rfl)
  obtain ⟨hwindow, hpos⟩ := ha.window hwindowW
  have hoff := ha.offsets hoffW
  have hraw := ha.raw (hw.raw (.inr hc))
  obtain ⟨htwindow, htpos, htoff⟩ := trackOffset_congr (c := build) hdyn hraw hoff hwindow hpos
  obtain ⟨hfilt, hlast, hout⟩ := runFilter_congr (c := build) hhpf ha.filt ha.last hraw hoff
  have hwritten : s.written.slots.set s.bufIdx.toNat true hk = s'.written.slots.set s'.bufIdx.toNat true hk' := by
    simp only [ha.bufIdx, ha.written]
  exact
    { ha with
      ctl := by
        show (s.toRegisters.afterProc build hk).ctl = (s'.toRegisters.afterProc build hk').ctl
        rw [afterProc_ctl, afterProc_ctl, ha.bufIdx]
      bufIdx := congrArg (· + 1) ha.bufIdx
      filt := hfilt
      last := hlast
      written := by
        show (s.toRegisters.afterProc build hk).written = (s'.toRegisters.afterProc build hk').written
        rw [afterProc_written, afterProc_written, hwritten, ha.written]
      offsets := fun _ => htoff
      window := fun _ => ⟨htwindow, htpos⟩
      slots := by
        intro k hlt h
        have happend := ha.slots_append (out := s.toRegisters.tickOut build) hk k hlt h
        simp only [afterProc_buf, Lanes.zip, ← hout, ← ha.bufIdx]
        exact happend }

/-- Whatever move a state makes, an agreeing one makes the same, and they agree after it. -/
theorem AgreeWritten.exists_move (ha : AgreeWritten s s') (hw : s.WrittenInv) {e : Effect build.windowN}
    (hm : Move s.toRegisters s.pins e) :
    ∃ e', Move s'.toRegisters s'.pins e' ∧ e.events = e'.events ∧
      AgreeWritten (s.withRegs e.regs) (s'.withRegs e'.regs) := by
  rw [ha.pins_eq]
  have hctl : ∀ {c : Ctl}, s.ctl = c → s'.ctl = c := fun h => ha.ctl ▸ h
  have hwaits : s'.toRegisters.waits build s.pins = s.toRegisters.waits build s.pins := by
    simp only [Registers.waits, Registers.temperatureTick, ha.ctl, ha.tempCtr]
  cases hm with
  | reset hr =>
    exact ⟨_, .reset hr, rfl,
      { ha with
        ctl := rfl, calCount := rfl, bufIdx := rfl, txIdx := rfl, tempCtr := rfl, fatalCause := rfl, filt := rfl
        last := rfl, written := rfl, straps := fun _ => ⟨rfl, rfl⟩, delayStart := fun _ => rfl,
        calibTemp := fun _ => rfl
        sums := fun _ => rfl, offsets := fun _ => rfl, currentTemp := fun _ => rfl, window := fun _ => ⟨rfl, rfl⟩
        lastTick := fun _ => rfl, raw := fun _ => rfl, slots := fun _ _ _ => ⟨rfl, rfl, rfl⟩, pkt := fun _ => rfl }⟩
  | held hr hwait hi => exact ⟨_, .held hr (hwaits.trans hwait) (fun h => ha.txIdx ▸ hi (ha.ctl ▸ h)), rfl, ha⟩
  | fatal hr hc => exact ⟨_, .fatal hr (hctl hc), rfl, ha⟩
  | init hr hc hv =>
    exact ⟨_, .init hr (hctl hc) hv, rfl,
      { ha with
        ctl := rfl, written := by rw [ha.written], straps := fun _ => ⟨rfl, rfl⟩, delayStart := fun _ => rfl }⟩
  | warmupWait hr hc hd =>
    have hstart := ha.delayStart (hw.delayStart (.inl hc))
    exact ⟨_, .warmupWait hr (hctl hc) (hstart ▸ hd), rfl, ha⟩
  | warmupGo hr hc hd =>
    have hstart := ha.delayStart (hw.delayStart (.inl hc))
    exact ⟨_, .warmupGo hr (hctl hc) (hstart ▸ hd), rfl, ha.setCtl _⟩
  | calTempOk hr hc hv he =>
    exact ⟨_, .calTempOk hr (hctl hc) hv he, rfl,
      { ha with
        ctl := rfl, calCount := rfl, written := by rw [ha.written], calibTemp := fun _ => rfl, sums := fun _ => rfl }⟩
  | calTempErr hr hc hv he => exact ⟨_, .calTempErr hr (hctl hc) hv he, rfl, ha.raiseFatal _ _⟩
  | sampleOk hr hc hv he =>
    obtain ⟨-, hsums⟩ := hw.calibrating (.inl hc)
    exact ⟨_, .sampleOk hr (hctl hc) hv he, rfl,
      { ha with
        ctl := rfl
        calCount := congrArg (· + 1) ha.calCount
        written := by rw [ha.written]
        sums := fun _ => by rw [ha.sums hsums]
        delayStart := fun _ => rfl }⟩
  | sampleErr hr hc hv he => exact ⟨_, .sampleErr hr (hctl hc) hv he, rfl, ha.raiseFatal _ _⟩
  | delayWait hr hc hd =>
    have hstart := ha.delayStart (hw.delayStart (.inr hc))
    exact ⟨_, .delayWait hr (hctl hc) (hstart ▸ hd), rfl, ha⟩
  | delayMore hr hc hd hn =>
    have hstart := ha.delayStart (hw.delayStart (.inr hc))
    exact ⟨_, .delayMore hr (hctl hc) (hstart ▸ hd) (ha.calCount ▸ hn), rfl, ha.setCtl _⟩
  | delayDone hr hc hd hn =>
    have hstart := ha.delayStart (hw.delayStart (.inr hc))
    exact ⟨_, .delayDone hr (hctl hc) (hstart ▸ hd) (ha.calCount ▸ hn), rfl, ha.setCtl _⟩
  | finish hr hc =>
    obtain ⟨hcalib, hsums⟩ := hw.calibrating (.inr (.inr hc))
    exact ⟨_, .finish hr (hctl hc), rfl,
      { ha with
        ctl := rfl
        bufIdx := rfl
        tempCtr := rfl
        written := by
          show ({ s.written with offsets := _, currentTemp := _, window := _, lastTick := _ } : Written) = _
          rw [ha.written]
          rfl
        offsets := fun _ => by
          show XYZ.mk _ _ _ = XYZ.mk _ _ _
          rw [ha.sums hsums]
        currentTemp := fun _ => ha.calibTemp hcalib
        window := fun _ => by
          refine ⟨?_, rfl⟩
          show Vector.replicate build.windowN (calMean build s.sum.z) = Vector.replicate build.windowN
              (calMean build s'.sum.z)
          rw [ha.sums hsums]
        lastTick := fun _ => rfl }⟩
  | idle hr hc hd =>
    obtain ⟨-, -, htickW⟩ := hw.sampling (by rw [hc]; rfl)
    exact ⟨_, .idle hr (hctl hc) (ha.lastTick htickW ▸ hd), rfl, ha⟩
  | fire hr hc hd =>
    obtain ⟨-, -, htickW⟩ := hw.sampling (by rw [hc]; rfl)
    have htick := ha.lastTick htickW
    exact ⟨_, .fire hr (hctl hc) (htick ▸ hd), rfl,
      (ha.setCtl .tickAcc).setLastTick (congrArg (· + 20000) htick)⟩
  | accOk hr hc hv he =>
    exact ⟨_, .accOk hr (hctl hc) hv he, rfl,
      { ha with ctl := rfl, written := by rw [ha.written], raw := fun _ => rfl }⟩
  | accErr hr hc hv he => exact ⟨_, .accErr hr (hctl hc) hv he, rfl, ha.raiseFatal _ _⟩
  | tempCount hr hc hn =>
    exact ⟨_, .tempCount hr (hctl hc) (ha.tempCtr ▸ hn), rfl,
      { ha with ctl := rfl, tempCtr := congrArg (· + 1) ha.tempCtr }⟩
  | tempOk hr hc hn hv he =>
    exact ⟨_, .tempOk hr (hctl hc) (ha.tempCtr ▸ hn) hv he, rfl,
      { ha with ctl := rfl, tempCtr := rfl, written := by rw [ha.written], currentTemp := fun _ => rfl }⟩
  | tempErr hr hc hn hv he => exact ⟨_, .tempErr hr (hctl hc) (ha.tempCtr ▸ hn) hv he, rfl, ha.raiseFatal _ _⟩
  | proc hr hc hk =>
    have hk' : s'.bufIdx.toNat < 5 := ha.bufIdx ▸ hk
    exact ⟨_, .proc hr (hctl hc) hk', rfl, ha.afterProc hw hc hk hk'⟩
  | encode hr hc =>
    exact ⟨_, .encode hr (hctl hc), rfl,
      { ha with
        ctl := rfl
        bufIdx := rfl
        txIdx := rfl
        written := by
          show ({ s.written with pkt := true } : Written) = _
          rw [ha.written]
          rfl
        pkt := fun _ => by
          show encodePacket build s.buf.z s.buf.e s.buf.n = encodePacket build s'.buf.z s'.buf.e s'.buf.n
          rw [ha.buf_eq hw hc] }⟩
  | txMore hr hc hv hi =>
    have hpkt := ha.pkt (hw.pkt hc)
    refine ⟨_, .txMore hr (hctl hc) hv (ha.txIdx ▸ hi), ?_, { ha with txIdx := ?_ }⟩
    · simp only [hpkt, ha.txIdx]
    · show BitVec.ofNat 7 (s.txIdx.toNat + 1) = BitVec.ofNat 7 (s'.txIdx.toNat + 1)
      rw [ha.txIdx]
  | txLast hr hc hv hi =>
    have hpkt := ha.pkt (hw.pkt hc)
    exact ⟨_, .txLast hr (hctl hc) hv (ha.txIdx ▸ hi), by simp only [hpkt], ha.setCtl _⟩

theorem step_of_no_slot (hr : s.pins.rst = false) (hc : s.ctl = .tickProc) (hk : ¬ s.bufIdx.toNat < 5) :
    step s = .fault .slotIndex := by
  rw [step_eq_coreStep, coreStep_of_ctl hr hc rfl, operate, tProcEffect_of_no_slot hk]
  rfl

theorem step_of_no_byte (hr : s.pins.rst = false) (hc : s.ctl = .tx) (hi : ¬ s.txIdx.toNat < 66) :
    step s = .fault .packetIndex := by
  have hfault : txByteEffect build s.toRegisters s.pins = .fault .packetIndex := dif_neg hi
  rw [step_eq_coreStep, coreStep_of_ctl hr hc rfl, operate, hfault]
  rfl

/-- A step answers a next state or stops at one of the two indices. -/
theorem exists_move_or_stops (s : State) : (∃ e, Move s.toRegisters s.pins e) ∨
    (s.pins.rst = false ∧ (s.ctl = .tickProc ∧ ¬ s.bufIdx.toNat < 5 ∨ s.ctl = .tx ∧ ¬ s.txIdx.toNat < 66)) := by
  by_cases hstop : s.ctl = .tickProc ∧ ¬ s.bufIdx.toNat < 5 ∨ s.ctl = .tx ∧ ¬ s.txIdx.toNat < 66
  · cases hr : s.pins.rst with
    | true => exact .inl ⟨_, .reset hr⟩
    | false => exact .inr ⟨rfl, hstop⟩
  · push Not at hstop
    exact .inl (Machine.exists_move s.pins hstop.1 hstop.2)

end

/-- Settles O57: agreeing states make the same moves, and stop at the same index. -/
theorem unwrittenValuesNeverMatter : Obligations.UnwrittenValuesNeverMatter := by
  unfold Obligations.UnwrittenValuesNeverMatter
  intro s s' hw ha
  obtain ⟨e, hm⟩ | ⟨hr, ⟨hc, hk⟩ | ⟨hc, hi⟩⟩ := exists_move_or_stops s
  · obtain ⟨e', hm', hev, hregs⟩ := ha.exists_move hw hm
    rw [step_of_move hm, step_of_move hm']
    exact ha.edge hev hregs
  · rw [step_of_no_slot hr hc hk, step_of_no_slot (ha.pins_eq ▸ hr) (ha.ctl ▸ hc) (ha.bufIdx ▸ hk)]
  · rw [step_of_no_byte hr hc hi, step_of_no_byte (ha.pins_eq ▸ hr) (ha.ctl ▸ hc) (ha.txIdx ▸ hi)]

end Sys2Proof.Machine

/-! Operations executed one after another (30_encoding.md R106, R107; log 13) and runs of steps: a whole packet
(44_encoder.md R186, R187), a calibration over identical samples (41_calibrator.md R121, R122), a window of one reading
(R125), catch-up polls (43_scheduler.md R166, R167, R169), the zero packet (44_encoder.md R189). -/

namespace Sys2Proof.Machine

/-! ## Sequences of operations -/

theorem execAll_cons_of_next {i : Instr} {s t : State} (h : exec i s = .next t) (l : List Instr) :
    execAll (i :: l) s = execAll l t := by
  rw [execAll, h]

theorem execAll_append_of_next {l : List Instr} {s t : State} (h : execAll l s = .next t) (m : List Instr) :
    execAll (l ++ m) s = execAll m t := by
  induction l generalizing s with
  | nil =>
    cases h
    rfl
  | cons i l ih =>
    cases hi : exec i s with
    | next u =>
      rw [execAll_cons_of_next hi] at h
      rw [List.cons_append, execAll_cons_of_next hi, ih h]
    | fault x => rw [execAll, hi] at h; cases h
    | refused x => rw [execAll, hi] at h; cases h

/-! ## A whole packet (R107) -/

/-- From `tx_idx = k`, ready transport: the `TX_BYTE` for the remaining bytes end in `POLL` with those bytes sent. -/
theorem execAll_txBytes {s : State} {m : Nat} (hready : s.pins.txReady = true) (hidx : s.txIdx.toNat + m = 65) :
    execAll (List.replicate (m + 1) .txByte) s = .next
      { s with
        txIdx := 65
        ctl := .poll
        trace := s.trace ++ (s.pkt.toList.drop s.txIdx.toNat).map Event.tx } := by
  induction m generalizing s with
  | zero =>
    have hlast : s.txIdx.toNat = 65 := hidx
    have heq : s.txIdx = 65 := BitVec.eq_of_toNat_eq hlast
    have hdrop : s.pkt.toList.drop 65 = [s.pkt[65]] := by
      rw [List.drop_eq_getElem_cons (by simp), List.drop_of_length_le (by simp), Vector.getElem_toList]
    obtain ⟨-, hbytes⟩ := txByteSendsTheNextByte
    obtain ⟨-, hfinish, -⟩ := hbytes s (by omega)
    rw [List.replicate_one, execAll_cons_of_next (hfinish hready hlast), execAll]
    simp only [hlast, hdrop, List.map_singleton, ← heq]
  | succ m ih =>
    have hlt : s.txIdx.toNat < 65 := by omega
    obtain ⟨-, hbytes⟩ := txByteSendsTheNextByte
    obtain ⟨hadvance, -, -⟩ := hbytes s (by omega)
    have hnext : (BitVec.ofNat 7 (s.txIdx.toNat + 1)).toNat = s.txIdx.toNat + 1 := by
      rw [BitVec.toNat_ofNat]
      omega
    have hbound : s.txIdx.toNat < s.pkt.toList.length := by
      rw [Vector.length_toList]
      exact Nat.lt_succ_of_lt hlt
    rw [List.replicate_succ, execAll_cons_of_next (hadvance hready hlt)]
    refine (ih ?_ ?_).trans ?_
    · exact hready
    · show (BitVec.ofNat 7 (s.txIdx.toNat + 1)).toNat + m = 65
      omega
    · simp only [hnext, List.drop_eq_getElem_cons hbound, Vector.getElem_toList, List.map_cons, List.append_assoc,
        List.singleton_append]

/-- Settles O34: `ENCODE` leaves `tx_idx = 0`, and 66 bytes remain. -/
theorem packetShorthandSendsTheWholePacket : Obligations.PacketShorthandSendsTheWholePacket := by
  unfold Obligations.PacketShorthandSendsTheWholePacket
  intro s hready
  rw [execAll_cons_of_next (exec_encode s), encodeEffect, apply_of_no_events]
  exact execAll_txBytes (m := 65) hready rfl

/-! ## A calibration over identical samples (R121, R122) -/

/-- What the calibration of identical samples keeps after `k` of them. -/
structure CalibratedBy (s : State) (k : Nat) (t : State) : Prop where
  inputs : t.inputs = s.inputs
  cycle : t.cycle = s.cycle
  calCount : t.calCount = BitVec.ofNat 8 k
  sum : t.sum =
    { x := BitVec.ofInt 32 (k * s.pins.accX.toInt)
      y := BitVec.ofInt 32 (k * s.pins.accY.toInt)
      z := BitVec.ofInt 32 (k * s.pins.accZ.toInt) }

theorem CalibratedBy.pins_eq {s t : State} {k : Nat} (h : CalibratedBy s k t) : t.pins = s.pins :=
  pins_eq_of_inputs h.inputs h.cycle

theorem ofInt_mul_add_sext16 (k : Nat) (v : I16) :
    BitVec.ofInt 32 (k * v.toInt) + sext16 v = BitVec.ofInt 32 ((k + 1 : Nat) * v.toInt) := by
  rw [sext16_eq_ofInt, ← BitVec.ofInt_add]
  congr 1
  push_cast
  ring

theorem exec_calTemp_calibratedBy {s : State} (hv : s.pins.tmpValid = true) (he : s.pins.tmpErr = false) :
    ∃ t, exec .calTemp s = .next t ∧ CalibratedBy s 0 t := by
  have hread := exec_calTemp s
  rw [calTempEffect_of_read _ hv he] at hread
  exact ⟨_, hread, rfl, rfl, rfl, by simp⟩

/-- One sample more. -/
theorem execAll_sample {s t : State} {k : Nat} (hv : s.pins.accValid = true) (he : s.pins.accErr = false)
    (h : CalibratedBy s k t) : ∃ u, execAll [.calSample, .calWait] t = .next u ∧ CalibratedBy s (k + 1) u := by
  rw [← h.pins_eq] at hv he
  have hsample := exec_calSample t
  rw [calSampleEffect_of_read _ hv he] at hsample
  rw [execAll_cons_of_next hsample, execAll_cons_of_next (exec_calWait _)]
  refine ⟨_, rfl, h.inputs, h.cycle, ?_, ?_⟩
  · show t.calCount + 1 = _
    rw [h.calCount, BitVec.ofNat_add]
    rfl
  · show XYZ.mk (t.sum.x + sext16 t.pins.accX) (t.sum.y + sext16 t.pins.accY) (t.sum.z + sext16 t.pins.accZ) = _
    rw [h.sum, h.pins_eq, ofInt_mul_add_sext16, ofInt_mul_add_sext16, ofInt_mul_add_sext16]

theorem execAll_samples {s t : State} {k : Nat} (hv : s.pins.accValid = true) (he : s.pins.accErr = false)
    (h : CalibratedBy s k t) (n : Nat) :
    ∃ u, execAll (List.replicate n [Instr.calSample, .calWait]).flatten t = .next u ∧ CalibratedBy s (k + n) u := by
  induction n generalizing t k with
  | zero => exact ⟨t, rfl, h⟩
  | succ n ih =>
    obtain ⟨u, hu, hu'⟩ := execAll_sample hv he h
    obtain ⟨w, hw, hw'⟩ := ih hu'
    refine ⟨w, ?_, by rwa [Nat.add_right_comm] at hw'⟩
    rw [List.replicate_succ, List.flatten_cons, execAll_append_of_next hu, hw]

/-- The mean of 200 equal readings is the reading, sign-extended. -/
theorem calMean_of_identical (v : I16) : calMean build (BitVec.ofInt 32 ((200 : Nat) * v.toInt)) = sext16 v := by
  obtain ⟨hlo, hhi⟩ := inI16_toInt v
  have hsum : (BitVec.ofInt 32 ((200 : Nat) * v.toInt)).toInt = 200 * v.toInt :=
    BitVec.toInt_ofInt_eq_self (by decide) (by push_cast; omega) (by push_cast; omega)
  rw [calMean_build, hsum, Int.mul_tdiv_cancel_left _ (by decide), sext16_eq_ofInt]

/-- Settles O36: the sums are 200 times the sample, so the means are the sample. -/
theorem identicalSamplesCalibrateExactly : Obligations.IdenticalSamplesCalibrateExactly := by
  unfold Obligations.IdenticalSamplesCalibrateExactly
  intro s htv hte hav hae
  obtain ⟨t, ht, hk0⟩ := exec_calTemp_calibratedBy htv hte
  obtain ⟨u, hu, hk⟩ := execAll_samples hav hae hk0 200
  rw [Nat.zero_add] at hk
  have hrun : execAll (.calTemp :: (List.replicate 200 [Instr.calSample, Instr.calWait]).flatten ++ [.calFinish]) s =
      .next (u.apply (calFinishEffect build u.toRegisters u.pins)) := by
    rw [List.cons_append, execAll_cons_of_next ht, execAll_append_of_next hu, execAll_cons_of_next (exec_calFinish u)]
    rfl
  refine ⟨_, hrun, ?_⟩
  simp only [State.apply_toRegisters, calFinishEffect, hk.sum, calMean_of_identical, sext16_toInt, hk.calCount]
  exact ⟨trivial, trivial, trivial, rfl, rfl⟩

/-! ## A window of one reading (R125) -/

/-- The entries the next `j` updates from position `p` on will have written, in a window of `n`. -/
theorem windowPush_iterate {n : Nat} (w : Vector I32 n) (p : Fin n) (k : I16) (j : Nat) :
    ((fun q : Vector I32 n × Fin n => (windowPush q.1 q.2 k, wrPosNext q.2))^[j] (w, p)).2.val = (p.val + j) % n ∧
    ∀ i, i < j → ∀ h : (p.val + i) % n < n,
      ((fun q : Vector I32 n × Fin n => (windowPush q.1 q.2 k, wrPosNext q.2))^[j] (w, p)).1[(p.val + i) % n] =
        sext16 k := by
  induction j with
  | zero => exact ⟨(Nat.mod_eq_of_lt p.isLt).symm, nofun⟩
  | succ j ih =>
    obtain ⟨hpos, hentries⟩ := ih
    rw [Function.iterate_succ_apply']
    refine ⟨?_, fun i hi h => ?_⟩
    · rw [wrPosNext_val, hpos, Nat.mod_add_mod, Nat.add_assoc]
    · rw [windowPush_getElem, hpos]
      split_ifs with heq
      · rfl
      · exact hentries i (lt_of_le_of_ne (Nat.le_of_lt_succ hi) fun hij => heq (by rw [hij])) h

/-- Settles O38: `n` updates pass every position once. -/
theorem constantReadingsConvergeTheWindow : Obligations.ConstantReadingsConvergeTheWindow := by
  unfold Obligations.ConstantReadingsConvergeTheWindow
  intro n w p k
  have hn : 0 < n := Nat.zero_lt_of_lt p.isLt
  obtain ⟨hpos, hentries⟩ := windowPush_iterate w p k n
  refine ⟨Prod.ext ?_ (Fin.ext ?_), ?_⟩
  · apply Vector.ext
    intro i hi
    have hreach : (p.val + (i + n - p.val) % n) % n = i := by
      rw [Nat.add_mod_mod, Nat.add_sub_of_le (by omega), Nat.add_mod_right, Nat.mod_eq_of_lt hi]
    have hentry := hentries ((i + n - p.val) % n) (Nat.mod_lt _ hn) (by omega)
    simp only [hreach] at hentry
    rw [hentry, Vector.getElem_replicate, sext16]
  · rw [hpos, Nat.add_mod_right, Nat.mod_eq_of_lt p.isLt]
  · rw [windowMean_replicate hn]
    exact sext16_toInt k

/-! ## Polls and ticks (43_scheduler.md R166, R167, R169) -/

/-- One whole interval taken from the elapsed time. -/
theorem usSince_add_interval {last now : U32} (h : 20000 ≤ usSince last now) :
    usSince (last + 20000) now = usSince last now - 20000 := by
  have hl := last.isLt
  have hn := now.isLt
  have hadd : (last + 20000).toNat = (last.toNat + 20000) % 2 ^ 32 := by
    rw [BitVec.toNat_add]
    rfl
  rw [usSince] at h ⊢
  rw [usSince, hadd]
  omega

theorem exec_poll_trace_pins {s t : State} (h : exec .poll s = .next t) :
    t.pins = s.pins ∧ t.trace = s.trace ++ [.now s.pins.now] := by
  rw [exec_poll] at h
  cases h
  exact ⟨rfl, rfl⟩

theorem exec_poll_of_due {s : State} (h : 20000 ≤ usSince s.lastTick s.pins.now) :
    ∃ t, exec .poll s = .next t ∧ t.lastTick = s.lastTick + 20000 := by
  refine ⟨_, exec_poll s, ?_⟩
  rw [pollEffect_of_due ((due_build_iff ..).mpr h)]
  rfl

theorem exec_poll_of_not_due {s : State} (h : usSince s.lastTick s.pins.now < 20000) :
    ∃ t, exec .poll s = .next t ∧ t.lastTick = s.lastTick := by
  refine ⟨_, exec_poll s, ?_⟩
  rw [pollEffect_of_not_due (mt (due_build_iff ..).mp (Nat.not_le.mpr h))]
  rfl

/-- Settles O43: by induction on the polls; a due one leaves one interval less, an idle one all as it was. -/
theorem catchUpFiresOneTickPerPoll : Obligations.CatchUpFiresOneTickPerPoll := by
  unfold Obligations.CatchUpFiresOneTickPerPoll
  intro s n
  induction n generalizing s with
  | zero => exact ⟨s, rfl, by simp, by simp⟩
  | succ n ih =>
    by_cases hdue : 20000 ≤ usSince s.lastTick s.pins.now
    · obtain ⟨u, hu, htick⟩ := exec_poll_of_due hdue
      obtain ⟨hpins, htrace⟩ := exec_poll_trace_pins hu
      obtain ⟨t, ht, hlast, htr⟩ := ih u
      refine ⟨t, by rw [List.replicate_succ, execAll_cons_of_next hu, ht], ?_, ?_⟩
      · have hmin : 20000 * min (n + 1) (usSince s.lastTick s.pins.now / 20000) =
            20000 + 20000 * min n ((usSince s.lastTick s.pins.now - 20000) / 20000) := by omega
        rw [hlast, htick, hpins, usSince_add_interval hdue, hmin, BitVec.ofNat_add, BitVec.add_assoc]
        rfl
      · rw [htr, htrace, hpins, List.replicate_succ, List.append_assoc, List.singleton_append]
    · obtain ⟨u, hu, htick⟩ := exec_poll_of_not_due (Nat.not_le.mp hdue)
      obtain ⟨hpins, htrace⟩ := exec_poll_trace_pins hu
      obtain ⟨t, ht, hlast, htr⟩ := ih u
      refine ⟨t, by rw [List.replicate_succ, execAll_cons_of_next hu, ht], ?_, ?_⟩
      · have hnone : usSince s.lastTick s.pins.now / 20000 = 0 := Nat.div_eq_of_lt (Nat.not_le.mp hdue)
        rw [hlast, htick, hpins, hnone, Nat.min_zero, Nat.min_zero]
      · rw [htr, htrace, hpins, List.replicate_succ, List.append_assoc, List.singleton_append]

/-- A step without reset from the Sampling phase or its fault stays there, and `last_tick` advances exactly when the
tick fires. -/
theorem lastTick_of_move {r : Registers build.windowN} {p : Pins} {e : Effect build.windowN} (hr : p.rst = false)
    (hs : r.ctl.sampling = true ∨ r.ctl = .fatal) (hm : Move r p e) :
    (e.regs.ctl.sampling = true ∨ e.regs.ctl = .fatal) ∧
      e.regs.lastTick = r.lastTick +
        BitVec.ofNat 32 (20000 * if r.ctl = .poll ∧ e.regs.ctl = .tickAcc then 1 else 0) := by
  cases hm with
  | reset h => exact absurd (hr.symm.trans h) Bool.false_ne_true
  | fire hr' hc hd => exact ⟨.inl rfl, by simp [hc]⟩
  | held =>
    refine ⟨hs, ?_⟩
    rw [Registers.hold_regs, if_neg (by rintro ⟨h, h'⟩; cases h.symm.trans h')]
    simp
  | fatal _ hc => exact ⟨hs, by simp [hc]⟩
  | idle _ hc => exact ⟨hs, by simp [hc]⟩
  | accErr _ hc | tempErr _ hc => exact ⟨.inr rfl, by simp [hc]⟩
  | proc _ hc hk =>
    refine ⟨.inl ?_, by simp [hc]⟩
    rw [afterProc_ctl]
    split <;> rfl
  | accOk _ hc | tempCount _ hc | tempOk _ hc | encode _ hc | txLast _ hc => exact ⟨.inl rfl, by simp [hc]⟩
  | txMore _ hc => exact ⟨.inl (by rw [hc]; rfl), by simp [hc]⟩
  | init _ hc | warmupWait _ hc | warmupGo _ hc | calTempOk _ hc | calTempErr _ hc | sampleOk _ hc | sampleErr _ hc
  | delayWait _ hc | delayMore _ hc | delayDone _ hc | finish _ hc => simp [hc, Ctl.sampling] at hs

theorem lastTick_of_steps {n : Nat} {s t : State} (hs : s.ctl.sampling = true ∨ s.ctl = .fatal)
    (hlow : ∀ k, k < n → (s.pinsAt k).rst = false) (h : steps n s = .next t) :
    t.lastTick = s.lastTick + BitVec.ofNat 32 (20000 * fires n s) := by
  induction n generalizing s with
  | zero =>
    cases h
    simp [fires]
  | succ n ih =>
    cases hstep : step s with
    | next u =>
      simp only [steps, hstep] at h
      obtain ⟨e, hm, hu⟩ := step_eq_next hstep
      have hr : s.pins.rst = false := by
        rw [pins_eq_pinsAt_zero]
        exact hlow 0 (Nat.zero_lt_succ n)
      obtain ⟨hs', htick⟩ := lastTick_of_move hr hs hm
      have hregs : u.toRegisters = e.regs := by rw [hu]; rfl
      rw [← hregs] at hs' htick
      have hlow' : ∀ k, k < n → (u.pinsAt k).rst = false := fun k hk => by
        rw [hu, pinsAt_nextEdge, pinsAt_apply]
        exact hlow (k + 1) (Nat.succ_lt_succ hk)
      simp only [fires, hstep]
      rw [ih hs' hlow' h, htick, Nat.mul_add, BitVec.ofNat_add, BitVec.add_assoc]
    | fault x => simp [steps, hstep] at h
    | refused x => simp [steps, hstep] at h

/-- Settles O41: by induction on the steps, with the fault that a run can end in. -/
theorem lastTickAdvancesByTicksFired : Obligations.LastTickAdvancesByTicksFired := by
  unfold Obligations.LastTickAdvancesByTicksFired
  intro n s t hs hlow h
  exact lastTick_of_steps (.inl hs) hlow h

end Sys2Proof.Machine

/-! Ticks on samples equal to the offsets (44_encoder.md R189), a tick's way back to `POLL` (43_scheduler.md R170,
R172), and that ticks and packets never end (45_orchestrator.md R212). -/

namespace Sys2Proof.Machine

/-! ## The zero packet (R189) -/

/-- Ticks on pins that show samples equal to the offsets: `k` slots hold zeros, and of the five ticks `m` have counted
for the temperature, which is answered if a 50th comes among the others. -/
structure TickedAtOffsets (s : State) (k m : Nat) (t : State) : Prop where
  inputs : t.inputs = s.inputs
  cycle : t.cycle = s.cycle
  hpf : t.cfgHpf = false
  dyn : t.cfgDyn = false
  off : t.off = { x := sext16 s.pins.accX, y := sext16 s.pins.accY, z := sext16 s.pins.accZ }
  bufIdx : t.bufIdx.toNat = k
  tempCtr : t.tempCtr.toNat ≤ 49
  answered : 45 + m ≤ t.tempCtr.toNat → s.pins.tmpValid = true ∧ s.pins.tmpErr = false
  zeros : ∀ (j : Nat) (hj : j < 5), j < t.bufIdx.toNat → SlotSatisfies t.buf (· = 0) j hj

section
variable {s t : State} {k m : Nat}

theorem TickedAtOffsets.pins_eq (h : TickedAtOffsets s k m t) : t.pins = s.pins :=
  pins_eq_of_inputs h.inputs h.cycle

theorem TickedAtOffsets.tAcc (h : TickedAtOffsets s k m t) (hv : s.pins.accValid = true)
    (he : s.pins.accErr = false) :
    ∃ u, exec .tAcc t = .next u ∧ TickedAtOffsets s k m u ∧
      u.raw = { x := s.pins.accX, y := s.pins.accY, z := s.pins.accZ } := by
  have hread := exec_tAcc t
  rw [tAccEffect_of_read _ (h.pins_eq ▸ hv) (h.pins_eq ▸ he), h.pins_eq] at hread
  exact ⟨_, hread, { h with }, rfl⟩

theorem TickedAtOffsets.tTemp (h : TickedAtOffsets s k m t) (hm : m < 5) :
    ∃ u, exec .tTemp t = .next u ∧ TickedAtOffsets s k (m + 1) u ∧ u.raw = t.raw := by
  have htemp := exec_tTemp t
  by_cases hn : t.tempCtr.toNat = 49
  · obtain ⟨hv, he⟩ := h.answered (by omega)
    rw [tTempEffect_of_read hn (h.pins_eq ▸ hv) (h.pins_eq ▸ he)] at htemp
    refine ⟨_, htemp, { h with tempCtr := Nat.zero_le _, answered := ?_ }, rfl⟩
    exact fun hle => absurd hle (Nat.not_succ_le_zero _)
  · rw [tTempEffect_of_count hn] at htemp
    have hle := h.tempCtr
    have hcount : (t.tempCtr + 1).toNat = t.tempCtr.toNat + 1 := toNat_add_one (by omega)
    refine ⟨_, htemp, { h with tempCtr := ?_, answered := fun hle => h.answered ?_ }, rfl⟩
    · show (t.tempCtr + 1).toNat ≤ 49
      omega
    · have hle' : 45 + (m + 1) ≤ (t.tempCtr + 1).toNat := hle
      omega

theorem TickedAtOffsets.tProc (h : TickedAtOffsets s k m t) (hk : k < 5)
    (hraw : t.raw = { x := s.pins.accX, y := s.pins.accY, z := s.pins.accZ }) :
    ∃ u, exec .tProc t = .next u ∧ TickedAtOffsets s (k + 1) m u := by
  have hidx : t.bufIdx.toNat < 5 := by rw [h.bufIdx]; exact hk
  have hzero : t.corrected.e = 0 ∧ t.corrected.n = 0 ∧ t.corrected.z = 0 := by
    rw [corrected_e, corrected_n, corrected_z, hraw, h.off]
    exact ⟨BitVec.sub_self _, BitVec.sub_self _, BitVec.sub_self _⟩
  have hshut : ¬ t.toRegisters.gateOpen build = true := by
    rw [Registers.gateOpen, h.dyn]
    exact nofun
  refine ⟨_, exec_tProc t hidx, { h with off := ?_, bufIdx := ?_, zeros := ?_ }⟩
  · rw [afterProc_off, trackOffset_of_gateShut _ hshut, h.off]
  · rw [afterProc_bufIdx, toNat_add_one (by omega), h.bufIdx]
  · rw [afterProc_bufIdx, afterProc_buf, tickOut_of_pass _ h.hpf]
    exact filledSlots_append hidx h.zeros hzero

/-- One tick more. -/
theorem TickedAtOffsets.tick (h : TickedAtOffsets s k k t) (hv : s.pins.accValid = true) (he : s.pins.accErr = false)
    (hk : k < 5) : ∃ u, execAll [.tAcc, .tTemp, .tProc] t = .next u ∧ TickedAtOffsets s (k + 1) (k + 1) u := by
  obtain ⟨t₁, hacc, h₁, hraw₁⟩ := h.tAcc hv he
  obtain ⟨t₂, htemp, h₂, hraw₂⟩ := h₁.tTemp hk
  obtain ⟨u, hproc, hu⟩ := h₂.tProc hk (hraw₂.trans hraw₁)
  refine ⟨u, ?_, hu⟩
  rw [execAll_cons_of_next hacc, execAll_cons_of_next htemp, execAll_cons_of_next hproc, execAll]

theorem TickedAtOffsets.ticks (h : TickedAtOffsets s k k t) (hv : s.pins.accValid = true)
    (he : s.pins.accErr = false) (n : Nat) (hn : k + n = 5) :
    ∃ u, execAll (List.replicate n [Instr.tAcc, .tTemp, .tProc]).flatten t = .next u ∧ TickedAtOffsets s 5 5 u := by
  induction n generalizing t k with
  | zero =>
    obtain rfl : k = 5 := hn
    exact ⟨t, rfl, h⟩
  | succ n ih =>
    obtain ⟨u, hu, hu'⟩ := h.tick hv he (by omega)
    obtain ⟨w, hw, hw'⟩ := ih hu' (by omega)
    exact ⟨w, by rw [List.replicate_succ, List.flatten_cons, execAll_append_of_next hu, hw], hw'⟩

/-- With all five slots zero the buffers' packet is `FC 1B` and zeros. -/
theorem TickedAtOffsets.packet (h : TickedAtOffsets s 5 m t) :
    (encodePacket build t.buf.z t.buf.e t.buf.n).toList = [0xFC, 0x1B] ++ List.replicate 64 0x00 := by
  have hslot : ∀ (j : Nat) (hj : j < 5), SlotSatisfies t.buf (· = 0) j hj := fun j hj =>
    h.zeros j hj (by rw [h.bufIdx]; exact hj)
  have hbuf : t.buf = { e := Vector.replicate 5 0, n := Vector.replicate 5 0, z := Vector.replicate 5 0 } := by
    apply Lanes.eq_of_lanes <;> refine Vector.ext fun j hj => ?_ <;> obtain ⟨he, hn, hz⟩ := hslot j hj <;>
      simpa using ‹_›
  rw [hbuf]
  rfl

end

/-- Settles O51: five ticks append zeros to all five slots. -/
theorem samplesAtTheOffsetsGiveTheZeroPacket : Obligations.SamplesAtTheOffsetsGiveTheZeroPacket := by
  unfold Obligations.SamplesAtTheOffsetsGiveTheZeroPacket
  intro s hv he hhpf hdyn hidx hctr htmp hoff
  have hstart : TickedAtOffsets s 0 0 s :=
    { inputs := rfl, cycle := rfl, hpf := hhpf, dyn := hdyn, off := hoff, bufIdx := hidx, tempCtr := hctr
      answered := htmp, zeros := fun j _ hj => absurd hj (by omega) }
  obtain ⟨u, hu, hticked⟩ := hstart.ticks hv he 5 rfl
  refine ⟨u.apply (encodeEffect build u.toRegisters), ?_, hticked.packet⟩
  rw [execAll_append_of_next hu, execAll_cons_of_next (exec_encode u), execAll]

/-! ## A tick's steps (R170, R172) -/

theorem steps_add_of_next {m : Nat} {s t : State} (h : steps m s = .next t) (n : Nat) :
    steps (m + n) s = steps n t := by
  induction m generalizing s with
  | zero =>
    cases h
    rw [Nat.zero_add]
  | succ m ih =>
    rw [Nat.succ_add]
    cases hs : step s with
    | next u =>
      simp only [steps, hs] at h ⊢
      exact ih h
    | fault x => simp [steps, hs] at h
    | refused x => simp [steps, hs] at h

/-- What an environment that answers at once shows. -/
theorem cooperative_iff (p : Pins) : cooperative p = true ↔
    p.rst = false ∧ p.initAck = true ∧ p.accValid = true ∧ p.accErr = false ∧ p.tmpValid = true ∧ p.tmpErr = false ∧
      p.txReady = true := by
  simp [cooperative, and_assoc]

/-- `n` steps lead from `s` to `t`, with `b` bytes sent and the environment `n` edges further. -/
structure Leads (n b : Nat) (s t : State) : Prop where
  steps : steps n s = .next t
  pins : ∀ k, t.pinsAt k = s.pinsAt (k + n)
  bytes : t.trace.countP Event.isTx = s.trace.countP Event.isTx + b

section
variable {s t u : State}

theorem leads_of_move {e : Effect build.windowN} (hm : Move s.toRegisters s.pins e) :
    Leads 1 (e.events.countP Event.isTx) s (s.apply e).nextEdge where
  steps := by simp only [Machine.steps, step_of_move hm]
  pins := fun k => by rw [pinsAt_nextEdge, pinsAt_apply]
  bytes := by rw [State.nextEdge_trace, State.apply_trace, List.countP_append]

theorem Leads.trans {m n b d : Nat} (h : Leads m b s t) (h' : Leads n d t u) : Leads (m + n) (b + d) s u where
  steps := by rw [steps_add_of_next h.steps, h'.steps]
  pins := fun k => by rw [h'.pins, h.pins, Nat.add_assoc, Nat.add_comm n m]
  bytes := by rw [h'.bytes, h.bytes, Nat.add_assoc]

theorem exists_leads_tickAcc (hc : s.ctl = .tickAcc) (hp : cooperative s.pins = true) :
    ∃ t, Leads 1 0 s t ∧ t.ctl = .tickTemp ∧ t.bufIdx = s.bufIdx := by
  obtain ⟨hr, -, hv, he, -⟩ := (cooperative_iff _).mp hp
  exact ⟨_, leads_of_move (.accOk hr hc hv he), rfl, rfl⟩

theorem exists_leads_tickTemp (hc : s.ctl = .tickTemp) (hp : cooperative s.pins = true) :
    ∃ t, Leads 1 0 s t ∧ t.ctl = .tickProc ∧ t.bufIdx = s.bufIdx := by
  obtain ⟨hr, -, -, -, hv, he, -⟩ := (cooperative_iff _).mp hp
  by_cases hn : s.tempCtr.toNat = 49
  · exact ⟨_, leads_of_move (.tempOk hr hc hn hv he), rfl, rfl⟩
  · exact ⟨_, leads_of_move (.tempCount hr hc hn), rfl, rfl⟩

theorem exists_leads_tickProc (hc : s.ctl = .tickProc) (hp : cooperative s.pins = true) (hk : s.bufIdx.toNat < 5) :
    ∃ t, Leads 1 0 s t ∧ t.ctl = (if s.bufIdx.toNat = 4 then .encode else .poll) ∧
      t.bufIdx.toNat = s.bufIdx.toNat + 1 := by
  obtain ⟨hr, -⟩ := (cooperative_iff _).mp hp
  refine ⟨_, leads_of_move (.proc hr hc hk), ?_, toNat_add_one (by omega)⟩
  rw [State.nextEdge_toRegisters, State.apply_toRegisters, afterProc_ctl, build_samplesPerPacket]
  exact if_congr (by omega) rfl rfl

theorem exists_leads_encode (hc : s.ctl = .encode) (hp : cooperative s.pins = true) :
    ∃ t, Leads 1 0 s t ∧ t.ctl = .tx ∧ t.bufIdx = 0 ∧ t.txIdx = 0 := by
  obtain ⟨hr, -⟩ := (cooperative_iff _).mp hp
  exact ⟨_, leads_of_move (.encode hr hc), rfl, rfl, rfl⟩

theorem exists_leads_txByte (hc : s.ctl = .tx) (hp : cooperative s.pins = true) (hidx : s.txIdx.toNat < 65) :
    ∃ t, Leads 1 1 s t ∧ t.ctl = .tx ∧ t.bufIdx = s.bufIdx ∧ t.txIdx.toNat = s.txIdx.toNat + 1 := by
  obtain ⟨hr, -, -, -, -, -, hv⟩ := (cooperative_iff _).mp hp
  refine ⟨_, leads_of_move (.txMore hr hc hv hidx), hc, rfl, ?_⟩
  show (BitVec.ofNat 7 (s.txIdx.toNat + 1)).toNat = s.txIdx.toNat + 1
  rw [BitVec.toNat_ofNat]
  omega

/-- The remaining `m + 1` bytes of a packet. -/
theorem exists_leads_tx {m : Nat} (hc : s.ctl = .tx) (hp : ∀ k, k < m + 1 → cooperative (s.pinsAt k) = true)
    (hidx : s.txIdx.toNat + m = 65) : ∃ t, Leads (m + 1) (m + 1) s t ∧ t.ctl = .poll ∧ t.bufIdx = s.bufIdx := by
  induction m generalizing s with
  | zero =>
    obtain ⟨hr, -, -, -, -, -, hv⟩ := (cooperative_iff _).mp (hp 0 (Nat.zero_lt_succ _))
    rw [← pins_eq_pinsAt_zero] at hr hv
    exact ⟨_, leads_of_move (.txLast hr hc hv hidx), rfl, rfl⟩
  | succ m ih =>
    obtain ⟨t, hst, hct, hbt, hit⟩ := exists_leads_txByte hc
      (by rw [pins_eq_pinsAt_zero]; exact hp 0 (Nat.zero_lt_succ _)) (by omega)
    obtain ⟨u, htu, hcu, hbu⟩ := ih hct (fun k hk => by rw [hst.pins]; exact hp (k + 1) (Nat.succ_lt_succ hk))
        (by omega)
    refine ⟨u, ?_, hcu, hbu.trans hbt⟩
    rw [Nat.add_comm (m + 1) 1]
    exact hst.trans htu

/-- The three steps of a tick. -/
theorem exists_leads_tick (hc : s.ctl = .tickAcc) (hp : ∀ k, k < 3 → cooperative (s.pinsAt k) = true)
    (hk : s.bufIdx.toNat < 5) :
    ∃ t, Leads 3 0 s t ∧ t.ctl = (if s.bufIdx.toNat = 4 then .encode else .poll) ∧
      t.bufIdx.toNat = s.bufIdx.toNat + 1 := by
  obtain ⟨t₁, h₁, hc₁, hb₁⟩ := exists_leads_tickAcc hc (by rw [pins_eq_pinsAt_zero]; exact hp 0 (by decide))
  obtain ⟨t₂, h₂, hc₂, hb₂⟩ := exists_leads_tickTemp hc₁
    (by rw [pins_eq_pinsAt_zero, h₁.pins]; exact hp 1 (by decide))
  obtain ⟨t₃, h₃, hc₃, hb₃⟩ := exists_leads_tickProc hc₂
    (by rw [pins_eq_pinsAt_zero, h₂.pins, h₁.pins]; exact hp 2 (by decide)) (by rw [hb₂, hb₁]; exact hk)
  rw [hb₂, hb₁] at hc₃ hb₃
  exact ⟨t₃, (h₁.trans h₂).trans h₃, hc₃, hb₃⟩

/-- A tick that fills the buffer goes on with its packet. -/
theorem exists_leads_packet (hc : s.ctl = .tickAcc) (hp : ∀ k, k < 70 → cooperative (s.pinsAt k) = true)
    (hk : s.bufIdx.toNat = 4) : ∃ t, Leads 70 66 s t ∧ t.ctl = .poll ∧ t.bufIdx.toNat = 0 := by
  obtain ⟨t, ht, hct, -⟩ := exists_leads_tick hc (fun k hlt => hp k (by omega)) (by omega)
  rw [if_pos hk] at hct
  obtain ⟨u, hu, hcu, hbu, hiu⟩ := exists_leads_encode hct
    (by rw [pins_eq_pinsAt_zero, ht.pins]; exact hp 3 (by decide))
  obtain ⟨w, hw, hcw, hbw⟩ := exists_leads_tx (m := 65) hcu
    (fun k hlt => by rw [hu.pins, ht.pins]; exact hp _ (by omega)) (by rw [hiu]; rfl)
  refine ⟨w, (ht.trans hu).trans hw, hcw, ?_⟩
  rw [hbw, hbu]
  rfl

end

/-! ## Progress (R212) -/

/-- At this edge the selected operation neither waits for a handshake nor for the clock. -/
def Registers.Goes (r : Registers build.windowN) (p : Pins) : Prop :=
  r.waits build p = false ∧ (r.ctl = .warmup → build.warmupUs ≤ usSince r.delayStart p.now) ∧
    (r.ctl = .calDelay → build.calDelayUs ≤ usSince r.delayStart p.now) ∧
    (r.ctl = .poll → 20000 ≤ usSince r.lastTick p.now)

/-- How many operations that do not wait it takes at most to the end of a packet. -/
def Registers.toPacketEnd (r : Registers build.windowN) : Nat :=
  match r.ctl with
  | .uninit => 491
  | .warmup => 490
  | .calTemp => 489
  | .calRead => 88 + 2 * (200 - r.calCount.toNat)
  | .calDelay => 89 + 2 * (200 - r.calCount.toNat)
  | .calDone => 88
  | .poll => 71 + 4 * (4 - r.bufIdx.toNat)
  | .tickAcc => 70 + 4 * (4 - r.bufIdx.toNat)
  | .tickTemp => 69 + 4 * (4 - r.bufIdx.toNat)
  | .tickProc => 68 + 4 * (4 - r.bufIdx.toNat)
  | .encode => 67
  | .tx => 66 - r.txIdx.toNat
  | .fatal => 0

section
variable {r : Registers build.windowN} {p : Pins} {e : Effect build.windowN}

/-- An operation that does not wait comes nearer to the end of a packet, or is it. -/
theorem toPacketEnd_lt_of_move (hi : r.Inv) (hf : r.ctl ≠ .fatal) (hr : p.rst = false) (hacc : p.accErr = false)
    (htmp : p.tmpErr = false) (hgo : r.Goes p) (hm : Move r p e) :
    (r.ctl = .tx ∧ e.regs.ctl = .poll) ∨ e.regs.toPacketEnd < r.toPacketEnd := by
  obtain ⟨hw, hwarm, hdelay, hpoll⟩ := hgo
  cases hm with
  | reset h => exact absurd (hr.symm.trans h) Bool.false_ne_true
  | held _ h => exact absurd (hw.symm.trans h) Bool.false_ne_true
  | fatal _ hc => exact absurd hc hf
  | calTempErr _ _ _ he | tempErr _ _ _ _ he => exact absurd (htmp.symm.trans he) Bool.false_ne_true
  | sampleErr _ _ _ he | accErr _ _ _ he => exact absurd (hacc.symm.trans he) Bool.false_ne_true
  | warmupWait _ hc hd => exact absurd (hwarm hc) (Nat.not_le.mpr hd)
  | delayWait _ hc hd => exact absurd (hdelay hc) (Nat.not_le.mpr hd)
  | idle _ hc hd => exact absurd (hpoll hc) (Nat.not_le.mpr hd)
  | txLast _ hc => exact .inl ⟨hc, rfl⟩
  | sampleOk _ hc =>
    right
    have hless := hi.more_samples hc
    have hcount : (r.calCount + 1).toNat = r.calCount.toNat + 1 := toNat_add_one (by omega)
    simp only [Registers.toPacketEnd, hc, hcount]
    omega
  | delayMore _ hc _ hn =>
    right
    simp only [Registers.toPacketEnd, hc]
    omega
  | delayDone _ hc _ hn =>
    right
    simp only [Registers.toPacketEnd, hc]
    omega
  | proc _ hc hk =>
    right
    have hidx : (r.bufIdx + 1).toNat = r.bufIdx.toNat + 1 := toNat_add_one (by omega)
    by_cases hfull : r.bufIdx.toNat + 1 = 5
    · have hctl : (r.afterProc build hk).ctl = .encode := if_pos hfull
      simp only [Registers.toPacketEnd, hc, hctl]
      omega
    · have hctl : (r.afterProc build hk).ctl = .poll := if_neg hfull
      simp only [Registers.toPacketEnd, hc, hctl, afterProc_bufIdx, hidx]
      omega
  | txMore _ hc _ hlt =>
    right
    have hidx : (BitVec.ofNat 7 (r.txIdx.toNat + 1)).toNat = r.txIdx.toNat + 1 := by
      rw [BitVec.toNat_ofNat]
      omega
    simp only [Registers.toPacketEnd, hc, hidx]
    omega
  | finish _ hc | encode _ hc =>
    right
    simp [Registers.toPacketEnd, hc, calFinishEffect]
  | init _ hc | warmupGo _ hc | calTempOk _ hc | fire _ hc | accOk _ hc | tempCount _ hc | tempOk _ hc =>
    right
    simp [Registers.toPacketEnd, hc]

/-- An operation that waits leaves every register. -/
theorem coreStep_of_not_goes (hi : r.Inv) (hr : p.rst = false) (hgo : ¬ r.Goes p) :
    ∃ e, coreStep build r p = .next e ∧ e.regs = r := by
  cases hw : r.waits build p with
  | true => exact ⟨_, coreStep_of_move (.held hr hw fun _ => Nat.lt_succ_of_le hi.txIdx_range), rfl⟩
  | false =>
    by_cases hwarm : r.ctl = .warmup ∧ usSince r.delayStart p.now < build.warmupUs
    · exact ⟨_, coreStep_of_move (.warmupWait hr hwarm.1 hwarm.2), rfl⟩
    by_cases hdelay : r.ctl = .calDelay ∧ usSince r.delayStart p.now < build.calDelayUs
    · exact ⟨_, coreStep_of_move (.delayWait hr hdelay.1 hdelay.2), rfl⟩
    by_cases hpoll : r.ctl = .poll ∧ usSince r.lastTick p.now < 20000
    · exact ⟨_, coreStep_of_move (.idle hr hpoll.1 hpoll.2), rfl⟩
    · push Not at hwarm hdelay hpoll
      exact absurd ⟨hw, hwarm, hdelay, hpoll⟩ hgo

end

/-- While less than `d < 2^31` microseconds have elapsed at every edge, the elapsed time grows with true time. -/
theorem usSince_advance {env : Nat → Pins} {T : Nat → Nat} (hT : ShowsTrueTime env T) (hwatch : ClockIsWatched T)
    {start : U32} {d n : Nat} (hd : d < 2 ^ 31) (hless : ∀ k, usSince start (env (n + k)).now < d) (k : Nat) :
    usSince start (env (n + k)).now = usSince start (env n).now + (T (n + k) - T n) := by
  obtain ⟨hnow, hmono⟩ := hT
  induction k with
  | zero => rw [Nat.add_zero, Nat.sub_self, Nat.add_zero]
  | succ k ih =>
    have hlt := hless k
    have hle : T n ≤ T (n + k) := monotone_nat_of_le_succ hmono (Nat.le_add_right n k)
    have hstep := hmono (n + k)
    rw [hnow, ← elapsed_toNat] at hlt
    have hadvance := elapsed_advance hstep (hwatch (n + k)) (hlt.trans hd)
    rw [← Nat.add_assoc, hnow (n + k + 1), ← elapsed_toNat, hadvance, elapsed_toNat, ← hnow, ih]
    omega

/-- Any time below `2^31` microseconds is seen to have passed at some edge (F2). -/
theorem exists_le_usSince {env : Nat → Pins} {T : Nat → Nat} (hT : ShowsTrueTime env T) (hpass : TimePasses T)
    (hwatch : ClockIsWatched T) (start : U32) {d : Nat} (hd : d < 2 ^ 31) (n : Nat) :
    ∃ k, d ≤ usSince start (env (n + k)).now := by
  by_contra hnever
  push Not at hnever
  obtain ⟨k, hk⟩ := hpass (T n + d)
  have hlater : T k ≤ T (n + k) := monotone_nat_of_le_succ hT.2 (Nat.le_add_left k n)
  have hadvance := usSince_advance hT hwatch hd hnever k
  have hlt := hnever k
  omega

section
variable {env : Nat → Pins} {T : Nat → Nat} {r : Registers build.windowN}

/-- At edge `n` the run from `r` is at `q`, which has the invariant and is not `FATAL`. -/
structure RunsTo (env : Nat → Pins) (r : Registers build.windowN) (n : Nat) (q : Registers build.windowN) : Prop where
  run : coreRun build env r n = some q
  inv : q.Inv
  alive : q.ctl ≠ .fatal

theorem RunsTo.next {n : Nat} {q : Registers build.windowN} (h : RunsTo env r n q) (hsafe : NeverResetsNorFails env) :
    ∃ e, Move q (env n) e ∧ RunsTo env r (n + 1) e.regs := by
  obtain ⟨e, hm⟩ := h.inv.exists_move (env n)
  obtain ⟨-, hacc, htmp⟩ := hsafe n
  have hcause : q.fatalCause = .none := by
    by_contra hne
    exact h.alive (h.inv.fatal_cause.mp hne)
  obtain ⟨halive, -⟩ := safe_of_move ⟨h.alive, hcause⟩ hacc htmp hm
  exact ⟨e, hm, by rw [coreRun_succ h.run, coreStep_of_move hm], inv_of_move h.inv hm, halive⟩

theorem exists_runsTo (hi : r.Inv) (hf : r.ctl ≠ .fatal) (hsafe : NeverResetsNorFails env) (n : Nat) :
    ∃ q, RunsTo env r n q := by
  induction n with
  | zero => exact ⟨r, rfl, hi, hf⟩
  | succ n ih =>
    obtain ⟨q, hq⟩ := ih
    obtain ⟨e, -, he⟩ := hq.next hsafe
    exact ⟨e.regs, he⟩

/-- The selected operation goes at some edge: handshakes by F1, delays and intervals by F2. -/
theorem RunsTo.exists_goes {n : Nat} {q : Registers build.windowN} (h : RunsTo env r n q)
    (hshake : HandshakesComplete build env r) (hT : ShowsTrueTime env T) (hpass : TimePasses T)
    (hwatch : ClockIsWatched T) : ∃ k, q.Goes (env (n + k)) := by
  have hfree : ∀ {c : Ctl} (p : Pins), q.ctl = c → c = .warmup ∨ c = .calDelay ∨ c = .poll →
      q.waits build p = false := by
    rintro c p hc (rfl | rfl | rfl) <;> rw [Registers.waits, hc]
  by_cases hwarm : q.ctl = .warmup
  · obtain ⟨k, hk⟩ := exists_le_usSince hT hpass hwatch q.delayStart build.warmupUs_lt n
    exact ⟨k, hfree _ hwarm (by simp), fun _ => hk, by simp [hwarm], by simp [hwarm]⟩
  by_cases hdelay : q.ctl = .calDelay
  · obtain ⟨k, hk⟩ := exists_le_usSince hT hpass hwatch q.delayStart build.calDelayUs_lt n
    exact ⟨k, hfree _ hdelay (by simp), by simp [hdelay], fun _ => hk, by simp [hdelay]⟩
  by_cases hpoll : q.ctl = .poll
  · obtain ⟨k, hk⟩ := exists_le_usSince hT hpass hwatch q.lastTick (d := 20000) (by decide) n
    exact ⟨k, hfree _ hpoll (by simp), by simp [hpoll], by simp [hpoll], fun _ => hk⟩
  · obtain ⟨k, hk⟩ := hshake n q h.run
    exact ⟨k, hk, fun hc => absurd hc hwarm, fun hc => absurd hc hdelay, fun hc => absurd hc hpoll⟩

/-- The run stays where it is until the selected operation goes. -/
theorem RunsTo.exists_goes_at {n : Nat} {q : Registers build.windowN} (h : RunsTo env r n q)
    (hsafe : NeverResetsNorFails env) (hshake : HandshakesComplete build env r) (hT : ShowsTrueTime env T)
    (hpass : TimePasses T) (hwatch : ClockIsWatched T) : ∃ m, n ≤ m ∧ RunsTo env r m q ∧ q.Goes (env m) := by
  have hstay : ∀ k, ¬ q.Goes (env k) → ∃ e, coreStep build q (env k) = .next e ∧ e.regs = q := fun k hk =>
    coreStep_of_not_goes h.inv (hsafe k).1 hk
  obtain ⟨m, hm, hrun, hgo⟩ := coreRun_wait_until q.Goes h.run hstay (h.exists_goes hshake hT hpass hwatch)
  exact ⟨m, hm, ⟨hrun, h.inv, h.alive⟩, hgo⟩

/-- A packet is ended after every edge. -/
theorem RunsTo.exists_packetEnd {n : Nat} {q : Registers build.windowN} (h : RunsTo env r n q)
    (hsafe : NeverResetsNorFails env) (hshake : HandshakesComplete build env r) (hT : ShowsTrueTime env T)
    (hpass : TimePasses T) (hwatch : ClockIsWatched T) : ∃ k, n ≤ k ∧ MovesAt build env r k .tx .poll := by
  induction hd : q.toPacketEnd using Nat.strong_induction_on generalizing n q with
  | _ d ih =>
    obtain ⟨m, hnm, hq, hgo⟩ := h.exists_goes_at hsafe hshake hT hpass hwatch
    obtain ⟨hr, hacc, htmp⟩ := hsafe m
    obtain ⟨e, hmove, he⟩ := hq.next hsafe
    obtain ⟨hctl, hctl'⟩ | hlt := toPacketEnd_lt_of_move hq.inv hq.alive hr hacc htmp hgo hmove
    · exact ⟨m, hnm, q, e.regs, hq.run, he.run, hctl, hctl'⟩
    · obtain ⟨k, hk, hmoves⟩ := ih _ (hd ▸ hlt) he rfl
      exact ⟨k, by omega, hmoves⟩

/-- From `POLL` a tick is fired. -/
theorem RunsTo.exists_fire {n : Nat} {q : Registers build.windowN} (h : RunsTo env r n q) (hc : q.ctl = .poll)
    (hsafe : NeverResetsNorFails env) (hshake : HandshakesComplete build env r) (hT : ShowsTrueTime env T)
    (hpass : TimePasses T) (hwatch : ClockIsWatched T) : ∃ k, n ≤ k ∧ MovesAt build env r k .poll .tickAcc := by
  obtain ⟨m, hnm, hq, -, -, -, hdue⟩ := h.exists_goes_at hsafe hshake hT hpass hwatch
  have hfire := coreStep_of_move (.fire (hsafe m).1 hc (hdue hc))
  exact ⟨m, hnm, q, _, hq.run, by rw [coreRun_succ hq.run, hfire], hc, rfl⟩

end

/-- Settles O44: a tick's operations counted out; and a packet ends after every edge, since what does not wait comes
nearer to its end and nothing waits for ever, and from the `POLL` after it a tick is fired. -/
theorem tickReturnsToPoll : Obligations.TickReturnsToPoll := by
  unfold Obligations.TickReturnsToPoll
  refine ⟨fun s hi hc hp => ⟨fun hk => ?less, fun hk => ?full⟩, ?progress⟩
  case less =>
    obtain ⟨t, ht, hct, hbt⟩ := exists_leads_tick hc (fun k hlt => hp k (by omega)) (by omega)
    rw [if_neg (by omega)] at hct
    exact ⟨t, ht.steps, hct, hbt, ht.bytes⟩
  case full =>
    obtain ⟨t, ht, hct, hbt⟩ := exists_leads_packet hc hp hk
    exact ⟨t, ht.steps, hct, hbt, ht.bytes⟩
  case progress =>
    intro env T r hi hf hsafe hshake hT hpass hwatch n
    obtain ⟨q, hq⟩ := exists_runsTo hi hf hsafe n
    obtain ⟨k, hk, hmoves⟩ := hq.exists_packetEnd hsafe hshake hT hpass hwatch
    refine ⟨?_, k, hk, hmoves⟩
    obtain ⟨-, q', -, hrun, -, hctl⟩ := hmoves
    obtain ⟨q'', hq''⟩ := exists_runsTo hi hf hsafe (k + 1)
    obtain rfl : q'' = q' := Option.some.inj (hq''.run.symm.trans hrun)
    obtain ⟨m, hm, hfires⟩ := hq''.exists_fire hctl hsafe hshake hT hpass hwatch
    exact ⟨m, by omega, hfires⟩

end Sys2Proof.Machine

/-! Rounding in the default binary32 arithmetic (42_highpass.md R142 to R145): the fields and the value of a pattern,
the nearest value with ties to even, the threshold of overflow, and the operations on finite operands, infinities and
NaNs. -/

namespace Sys2Proof.Machine

/-! ## Patterns by their sign and magnitude bits -/

/-- The magnitude in units of `2^-149` that 31 magnitude bits stand for (R142). -/
def bitsMagnitude (b : Nat) : Nat := if b / 2 ^ 23 = 0 then b % 2 ^ 23 else (2 ^ 23 + b % 2 ^ 23) * 2 ^ (b / 2 ^ 23 - 1)

theorem infBits_eq : infBits = 255 * 2 ^ 23 := rfl

section
variable {neg : Bool} {b : Nat}

theorem signed_toNat (hb : b < 2 ^ 31) : (signed neg b).toNat = (if neg then 2 ^ 31 else 0) + b := by
  rw [signed, BitVec.toNat_ofNat, Nat.mod_eq_of_lt (by split_ifs <;> omega)]

theorem expField_signed (hb : b < 2 ^ 31) : expField (signed neg b) = b / 2 ^ 23 := by
  rw [expField, signed_toNat hb]
  split_ifs <;> omega

theorem fracField_signed (hb : b < 2 ^ 31) : fracField (signed neg b) = b % 2 ^ 23 := by
  rw [fracField, signed_toNat hb]
  split_ifs <;> omega

theorem msb_signed (hb : b < 2 ^ 31) : (signed neg b).msb = neg := by
  rw [BitVec.msb_eq_decide, signed_toNat hb]
  cases neg
  · simpa using hb
  · simp

theorem magnitude_signed (hb : b < 2 ^ 31) : magnitude (signed neg b) = bitsMagnitude b := by
  rw [magnitude, expField_signed hb, fracField_signed hb, bitsMagnitude]

theorem value_signed (hb : b < 2 ^ 31) :
    value (signed neg b) = if neg then -(bitsMagnitude b : Int) else (bitsMagnitude b : Int) := by
  rw [value, msb_signed hb, magnitude_signed hb]

theorem isFinite_signed (hb : b ≤ infBits) : isFinite (signed neg b) = true ↔ b < infBits := by
  rw [infBits_eq] at *
  rw [isFinite, expField_signed (by omega), bne_iff_ne]
  omega

theorem isInf_signed (hb : b ≤ infBits) : isInf (signed neg b) = true ↔ b = infBits := by
  rw [infBits_eq] at *
  rw [isInf, expField_signed (by omega), fracField_signed (by omega), Bool.and_eq_true, beq_iff_eq, beq_iff_eq]
  omega

theorem isNan_signed (hlo : infBits < b) (hhi : b < 2 ^ 31) : isNan (signed neg b) = true := by
  rw [infBits_eq] at hlo
  rw [isNan, expField_signed hhi, fracField_signed hhi, Bool.and_eq_true, beq_iff_eq, bne_iff_ne]
  omega

end

/-- The magnitude bits of a pattern. -/
theorem eq_signed (f : F32) : ∃ b, b < 2 ^ 31 ∧ f = signed f.msb b := by
  have hlt := f.isLt
  refine ⟨f.toNat % 2 ^ 31, Nat.mod_lt _ (by decide), BitVec.eq_of_toNat_eq ?_⟩
  rw [signed_toNat (Nat.mod_lt _ (by decide)), BitVec.msb_eq_decide]
  by_cases h : 2 ^ 31 ≤ f.toNat
  · simp only [h, decide_true, if_true]
    omega
  · simp only [h, decide_false]
    simp
    omega

/-- The magnitude bits of a finite pattern. -/
theorem eq_signed_of_isFinite {f : F32} (h : isFinite f = true) : ∃ b, b < infBits ∧ f = signed f.msb b := by
  obtain ⟨b, hb, hf⟩ := eq_signed f
  refine ⟨b, ?_, hf⟩
  have hexp := expField_signed (neg := f.msb) hb
  rw [← hf] at hexp
  rw [isFinite, hexp, bne_iff_ne] at h
  rw [infBits_eq]
  omega

theorem value_eq_of_isFinite {f : F32} (h : isFinite f = true) :
    ∃ b, b < infBits ∧ magnitude f = bitsMagnitude b ∧ (value f = bitsMagnitude b ∨
        value f = -(bitsMagnitude b : Int)) := by
  obtain ⟨b, hb, hf⟩ := eq_signed_of_isFinite h
  have hlt : b < 2 ^ 31 := by rw [infBits_eq] at hb; omega
  refine ⟨b, hb, by rw [hf, magnitude_signed hlt], ?_⟩
  rw [hf, value_signed hlt]
  cases f.msb <;> simp

theorem natAbs_value (f : F32) : (value f).natAbs = magnitude f := by
  rw [value]
  split_ifs <;> simp

/-- Every finite magnitude is a multiple of a power of two, or below the values of 24 bits with that unit. -/
theorem dvd_bitsMagnitude_or_lt (b e : Nat) : 2 ^ e ∣ bitsMagnitude b ∨ bitsMagnitude b < 2 ^ 23 * 2 ^ e := by
  have hfrac : b % 2 ^ 23 < 2 ^ 23 := Nat.mod_lt b (by decide)
  rw [bitsMagnitude]
  split_ifs with hexp
  · right
    have hone : 1 ≤ 2 ^ e := Nat.one_le_two_pow
    omega
  · rcases Nat.lt_or_ge (b / 2 ^ 23 - 1) e with hlt | hge
    · right
      calc (2 ^ 23 + b % 2 ^ 23) * 2 ^ (b / 2 ^ 23 - 1) < 2 ^ 24 * 2 ^ (b / 2 ^ 23 - 1) :=
            Nat.mul_lt_mul_of_pos_right (by omega) (Nat.two_pow_pos _)
        _ = 2 ^ 23 * 2 ^ (b / 2 ^ 23 - 1 + 1) := by rw [pow_succ 2 (b / 2 ^ 23 - 1)]; ring
        _ ≤ 2 ^ 23 * 2 ^ e := Nat.mul_le_mul_left _ (Nat.pow_le_pow_right (by decide) hlt)
    · left
      exact Dvd.dvd.mul_left (pow_dvd_pow 2 hge) _

/-- Rounding up to `2^24` carries into the exponent field: the bits of `q` units of `2^e`. -/
theorem bitsMagnitude_of_scaled {e q : Nat} (hq : q ≤ 2 ^ 24) (hnormal : e = 0 ∨ 2 ^ 23 ≤ q) :
    bitsMagnitude (e * 2 ^ 23 + q) = q * 2 ^ e := by
  rcases Nat.lt_or_ge q (2 ^ 23) with hlt | hge
  · obtain rfl : e = 0 := by omega
    have hexp : (0 * 2 ^ 23 + q) / 2 ^ 23 = 0 := by omega
    rw [bitsMagnitude, if_pos hexp]
    omega
  · rcases Nat.lt_or_ge q (2 ^ 24) with hlt | htop
    · have hexp : (e * 2 ^ 23 + q) / 2 ^ 23 = e + 1 := by omega
      have hfrac : 2 ^ 23 + (e * 2 ^ 23 + q) % 2 ^ 23 = q := by omega
      rw [bitsMagnitude, if_neg (by omega), hexp, hfrac, Nat.add_sub_cancel]
    · obtain rfl : q = 2 ^ 24 := Nat.le_antisymm hq htop
      have hexp : (e * 2 ^ 23 + 2 ^ 24) / 2 ^ 23 = e + 2 := by omega
      have hfrac : (e * 2 ^ 23 + 2 ^ 24) % 2 ^ 23 = 0 := by omega
      rw [bitsMagnitude, if_neg (by omega), hexp, hfrac, Nat.add_zero]
      show 2 ^ 23 * 2 ^ (e + 1) = 2 ^ 24 * 2 ^ e
      rw [pow_succ 2 e]
      ring

/-! ## Rounding half to even (R142) -/

/-- The rounded quotient is within half a unit, and even in the middle. -/
theorem roundHalfEven_spec (n k : Nat) :
    2 * |(roundHalfEven n k * 2 ^ k : Int) - n| ≤ 2 ^ k ∧
      (2 * |(roundHalfEven n k * 2 ^ k : Int) - n| = 2 ^ k → roundHalfEven n k % 2 = 0) := by
  have hpos : (0 : Int) < 2 ^ k := by positivity
  have hdiv : (2 ^ k : Nat) * (n / 2 ^ k) + n % 2 ^ k = n := Nat.div_add_mod n (2 ^ k)
  have hlt : n % 2 ^ k < 2 ^ k := Nat.mod_lt n (Nat.two_pow_pos k)
  have hcast : (2 ^ k : Int) = ((2 ^ k : Nat) : Int) := by push_cast; rfl
  rw [roundHalfEven, hcast]
  generalize 2 ^ k = P at *
  generalize n / P = a at *
  generalize n % P = t at *
  subst hdiv
  split_ifs with h
  · have hdiff : ((a + 1 : Nat) : Int) * P - (P * a + t : Nat) = P - t := by push_cast; ring
    rw [hdiff, abs_of_nonneg (by omega)]
    omega
  · have hdiff : (a : Int) * P - (P * a + t : Nat) = -t := by push_cast; ring
    rw [hdiff, abs_neg, abs_of_nonneg (by omega)]
    omega

/-- No multiple of the unit is nearer than the rounded one; one as near leaves it even. -/
theorem roundHalfEven_nearest (n k : Nat) (j : Int) :
    |(roundHalfEven n k * 2 ^ k : Int) - n| ≤ |j * 2 ^ k - n| ∧
      (|(roundHalfEven n k * 2 ^ k : Int) - n| = |j * 2 ^ k - n| → j ≠ roundHalfEven n k →
        roundHalfEven n k % 2 = 0) := by
  obtain ⟨hhalf, htie⟩ := roundHalfEven_spec n k
  have hpos : (0 : Int) < 2 ^ k := by positivity
  generalize (2 ^ k : Int) = P at *
  generalize roundHalfEven n k = q at *
  have hgap : j ≠ q → |(q : Int) * P - n| ≤ |j * P - n| ∧ (|(q : Int) * P - n| = |j * P - n| →
      2 * |(q : Int) * P - n| = P) := by
    intro hne
    have hfar : P ≤ |j * P - q * P| := by
      rw [← sub_mul, abs_mul, abs_of_pos hpos]
      exact le_mul_of_one_le_left hpos.le (Int.one_le_abs (sub_ne_zero.mpr hne))
    have htri : |j * P - q * P| ≤ |j * P - n| + |(q : Int) * P - n| := by
      have h := abs_sub_le (j * P) n (q * P)
      rwa [abs_sub_comm (n : Int)] at h
    constructor
    · linarith
    · intro heq
      linarith
  by_cases hj : j = q
  · subst hj
    exact ⟨le_rfl, fun _ hne => absurd rfl hne⟩
  · obtain ⟨hle, heq⟩ := hgap hj
    exact ⟨hle, fun h _ => htie (heq h)⟩

/-! ## The rounded magnitude bits -/

section
variable (n d : Nat)

theorem le_dropBits : d ≤ dropBits n d := Nat.le_max_left _ _

theorem roundHalfEven_dropBits_le : roundHalfEven n (dropBits n d) ≤ 2 ^ 24 := by
  have hlog : n < 2 ^ (n.log2 + 1) := Nat.lt_log2_self
  have hbits : n.log2 + 1 ≤ 24 + dropBits n d := by
    have h : n.log2 - 23 ≤ dropBits n d := Nat.le_max_right _ _
    omega
  have hdiv : n / 2 ^ dropBits n d < 2 ^ 24 := by
    rw [Nat.div_lt_iff_lt_mul (Nat.two_pow_pos _), ← pow_add]
    exact hlog.trans_le (Nat.pow_le_pow_right (by decide) hbits)
  rw [roundHalfEven]
  split_ifs <;> omega

/-- Where bits above the operand's unit are dropped, 24 significant bits are left. -/
theorem two_pow_mul_le_of_drop (h : dropBits n d - d ≠ 0) : 2 ^ 23 * 2 ^ dropBits n d ≤ n := by
  have hdrop : dropBits n d = n.log2 - 23 := by
    unfold dropBits at h ⊢
    omega
  have hlog : n.log2 = 23 + dropBits n d := by
    have := le_dropBits n d
    omega
  have hne : n ≠ 0 := by
    rintro rfl
    rw [Nat.log2_zero] at hlog
    omega
  rw [← pow_add, ← hlog]
  exact Nat.log2_self_le hne

theorem two_pow_le_roundHalfEven (h : dropBits n d - d ≠ 0) : 2 ^ 23 ≤ roundHalfEven n (dropBits n d) := by
  have hdiv : 2 ^ 23 ≤ n / 2 ^ dropBits n d :=
    (Nat.le_div_iff_mul_le (Nat.two_pow_pos _)).mpr (two_pow_mul_le_of_drop n d h)
  rw [roundHalfEven]
  split_ifs <;> omega

theorem roundBits_le : roundBits n d ≤ infBits := Nat.min_le_right _ _

theorem roundBits_lt : roundBits n d < 2 ^ 31 := (roundBits_le n d).trans_lt (by decide)

theorem roundBits_of_lt (h : roundBits n d < infBits) :
    roundBits n d = (dropBits n d - d) * 2 ^ 23 + roundHalfEven n (dropBits n d) := by
  unfold roundBits at h ⊢
  omega

/-- The rounded magnitude, in units of the operand, is the rounded quotient in units of the bits dropped. -/
theorem bitsMagnitude_roundBits (h : roundBits n d < infBits) :
    bitsMagnitude (roundBits n d) * 2 ^ d = roundHalfEven n (dropBits n d) * 2 ^ dropBits n d := by
  have hnormal : dropBits n d - d = 0 ∨ 2 ^ 23 ≤ roundHalfEven n (dropBits n d) := by
    by_cases h0 : dropBits n d - d = 0
    · exact .inl h0
    · exact .inr (two_pow_le_roundHalfEven n d h0)
  rw [roundBits_of_lt n d h, bitsMagnitude_of_scaled (roundHalfEven_dropBits_le n d) hnormal, Nat.mul_assoc, ← pow_add,
    Nat.sub_add_cancel (le_dropBits n d)]

/-- No finite magnitude is nearer to `n / 2^d` than the rounded one, and of two equally near its fraction is even. -/
theorem roundBits_nearest (h : roundBits n d < infBits) (c : Nat) :
    |(bitsMagnitude (roundBits n d) * 2 ^ d : Int) - n| ≤ |(bitsMagnitude c * 2 ^ d : Int) - n| ∧
      (|(bitsMagnitude (roundBits n d) * 2 ^ d : Int) - n| = |(bitsMagnitude c * 2 ^ d : Int) - n| →
        bitsMagnitude c ≠ bitsMagnitude (roundBits n d) → roundBits n d % 2 = 0) := by
  have hvalue : (bitsMagnitude (roundBits n d) * 2 ^ d : Int) =
      roundHalfEven n (dropBits n d) * 2 ^ dropBits n d := by exact_mod_cast bitsMagnitude_roundBits n d h
  have heven : roundHalfEven n (dropBits n d) % 2 = 0 → roundBits n d % 2 = 0 := by
    rw [roundBits_of_lt n d h]
    omega
  have hunit : 2 ^ (dropBits n d - d) * 2 ^ d = 2 ^ dropBits n d := by
    rw [← pow_add, Nat.sub_add_cancel (le_dropBits n d)]
  by_cases hdvd : 2 ^ (dropBits n d - d) ∣ bitsMagnitude c
  · obtain ⟨j, hj⟩ := hdvd
    have hother : (bitsMagnitude c * 2 ^ d : Int) = (j : Int) * 2 ^ dropBits n d := by
      have hnat : bitsMagnitude c * 2 ^ d = j * 2 ^ dropBits n d := by rw [hj, ← hunit]; ring
      exact_mod_cast hnat
    obtain ⟨hle, htie⟩ := roundHalfEven_nearest n (dropBits n d) j
    rw [hvalue, hother]
    refine ⟨hle, fun heq hne => heven (htie heq fun hjq => hne ?_)⟩
    have hsame : (bitsMagnitude c * 2 ^ d : Int) = bitsMagnitude (roundBits n d) * 2 ^ d := by
      rw [hvalue, hother, hjq]
    have hnat : bitsMagnitude c * 2 ^ d = bitsMagnitude (roundBits n d) * 2 ^ d := by exact_mod_cast hsame
    exact Nat.eq_of_mul_eq_mul_right (Nat.two_pow_pos d) hnat
  · have hsmall : bitsMagnitude c < 2 ^ 23 * 2 ^ (dropBits n d - d) :=
      (dvd_bitsMagnitude_or_lt c _).resolve_left hdvd
    have hdrop : dropBits n d - d ≠ 0 := by
      intro h0
      rw [h0, pow_zero] at hdvd
      exact hdvd (one_dvd _)
    have hfloor : ((2 ^ 23 : Int) * 2 ^ dropBits n d) ≤ n := by exact_mod_cast two_pow_mul_le_of_drop n d hdrop
    have hbelow : (bitsMagnitude c * 2 ^ d : Int) < 2 ^ 23 * 2 ^ dropBits n d := by
      have hnat : bitsMagnitude c * 2 ^ d < 2 ^ 23 * 2 ^ dropBits n d := by
        rw [← hunit, ← Nat.mul_assoc]
        exact Nat.mul_lt_mul_of_pos_right hsmall (Nat.two_pow_pos d)
      exact_mod_cast hnat
    obtain ⟨hle, -⟩ := roundHalfEven_nearest n (dropBits n d) (2 ^ 23)
    have hlt : |(2 ^ 23 : Int) * 2 ^ dropBits n d - n| < |(bitsMagnitude c * 2 ^ d : Int) - n| := by
      rw [abs_of_nonpos (by linarith), abs_of_nonpos (by linarith)]
      linarith
    rw [hvalue]
    exact ⟨hle.trans hlt.le, fun heq => absurd heq (hle.trans_lt hlt).ne⟩

theorem roundHalfEven_bounds (k : Nat) : 2 * (roundHalfEven n k * 2 ^ k) ≤ 2 * n + 2 ^ k ∧
    2 * n ≤ 2 * (roundHalfEven n k * 2 ^ k) + 2 ^ k ∧
    (2 * n = 2 * (roundHalfEven n k * 2 ^ k) + 2 ^ k → roundHalfEven n k % 2 = 0) := by
  obtain ⟨hhalf, htie⟩ := roundHalfEven_spec n k
  have hcast : (roundHalfEven n k * 2 ^ k : Int) = ((roundHalfEven n k * 2 ^ k : Nat) : Int) := by push_cast; rfl
  have hpow : (2 ^ k : Int) = ((2 ^ k : Nat) : Int) := by push_cast; rfl
  rw [hcast, hpow] at hhalf htie
  generalize roundHalfEven n k * 2 ^ k = m at *
  generalize 2 ^ k = P at *
  have habove := le_abs_self ((m : Int) - n)
  have hbelow := neg_abs_le ((m : Int) - n)
  refine ⟨by omega, by omega, fun h => htie ?_⟩
  rw [abs_of_nonpos (by omega)]
  omega

/-- The threshold of overflow, `2^128 - 2^103` in units of `2^-149`, here with `2^252` as the unit. -/
theorem roundBits_eq_infBits_iff : roundBits n d = infBits ↔ (2 ^ 25 - 1) * (2 ^ 252 * 2 ^ d) ≤ n := by
  obtain ⟨hlo, hhi, htie⟩ := roundHalfEven_bounds n (dropBits n d)
  have hq := roundHalfEven_dropBits_le n d
  have hunit : 2 ^ dropBits n d = 2 ^ (dropBits n d - d) * 2 ^ d := by
    rw [← pow_add, Nat.sub_add_cancel (le_dropBits n d)]
  have hpos : 0 < 2 ^ 252 * 2 ^ d := by positivity
  have hinf : roundBits n d = infBits ↔
      255 * 2 ^ 23 ≤ (dropBits n d - d) * 2 ^ 23 + roundHalfEven n (dropBits n d) := by
    unfold roundBits
    rw [infBits_eq]
    omega
  have hlarge : ∀ m, m ≤ dropBits n d - d → 2 ^ m * 2 ^ d ≤ 2 ^ dropBits n d := fun m hm => by
    rw [hunit]
    exact Nat.mul_le_mul_right _ (Nat.pow_le_pow_right (by decide) hm)
  rw [hinf]
  rcases lt_trichotomy (dropBits n d - d) 253 with hsmall | hlast | hbig
  · have hle : 2 ^ dropBits n d ≤ 2 ^ 252 * 2 ^ d := by
      rw [hunit]
      exact Nat.mul_le_mul_right _ (Nat.pow_le_pow_right (by decide) (by omega))
    have hmul := Nat.mul_le_mul hq hle
    refine iff_of_false (by omega) ?_
    generalize roundHalfEven n (dropBits n d) * 2 ^ dropBits n d = m at *
    generalize 2 ^ 252 * 2 ^ d = X at *
    omega
  · have htwo : 2 ^ dropBits n d = 2 * (2 ^ 252 * 2 ^ d) := by
      rw [hunit, hlast, pow_succ 2 252]
      ring
    rw [hlast]
    rw [htwo] at hlo hhi htie
    generalize 2 ^ 252 * 2 ^ d = X at *
    generalize roundHalfEven n (dropBits n d) = q at *
    constructor
    · intro h
      obtain rfl : q = 2 ^ 24 := by omega
      omega
    · intro h
      by_contra hless
      have hmul : q * (2 * X) ≤ (2 ^ 24 - 1) * (2 * X) := Nat.mul_le_mul_right _ (by omega)
      have hodd : q % 2 = 0 := htie (by omega)
      have hmul' : q * (2 * X) ≤ (2 ^ 24 - 2) * (2 * X) := Nat.mul_le_mul_right _ (by omega)
      omega
  · have hdrop : dropBits n d - d ≠ 0 := by omega
    have hfour : 4 * (2 ^ 252 * 2 ^ d) ≤ 2 ^ dropBits n d := by
      have h := hlarge 254 (by omega)
      rw [pow_succ 2 253, pow_succ 2 252] at h
      linarith
    have hfloor := two_pow_mul_le_of_drop n d hdrop
    have hnormal := two_pow_le_roundHalfEven n d hdrop
    refine iff_of_true (by omega) ?_
    generalize 2 ^ 252 * 2 ^ d = X at *
    omega

theorem roundBits_zero : roundBits 0 d = 0 := by
  have hdrop : dropBits 0 d = d := by simp [dropBits]
  have hround : roundHalfEven 0 d = 0 := by simp [roundHalfEven]
  rw [roundBits, hdrop, hround, Nat.sub_self, Nat.zero_mul]
  rfl

end

/-! ## The nearest value -/

/-- Of two magnitudes, with signs, the distance to `x` is at least that of the magnitudes, and more if the sign is not
that of `x`. -/
theorem abs_sub_of_signs {x v M : Int} (hM : 0 ≤ M) (hv : v = M ∨ v = -M) :
    |M - (|x|)| ≤ |v - x| ∧ (|M - (|x|)| = |v - x| → x = 0 ∨ M = 0 ∨ (0 < x ∧ v = M) ∨ (x < 0 ∧ v = -M)) := by
  rcases lt_trichotomy x 0 with hx | rfl | hx
  · rw [abs_of_neg hx]
    rcases hv with rfl | rfl
    · rw [abs_of_nonneg (a := v - x) (by omega)]
      rcases abs_cases (v - -x) with ⟨h, -⟩ | ⟨h, -⟩ <;> rw [h] <;> omega
    · rw [← abs_neg, neg_sub, show -x - M = -M - x by ring]
      exact ⟨le_rfl, fun _ => .inr (.inr (.inr ⟨hx, rfl⟩))⟩
  · rw [abs_zero, sub_zero, sub_zero]
    rcases hv with rfl | rfl
    · exact ⟨le_rfl, fun _ => .inl rfl⟩
    · rw [abs_neg]
      exact ⟨le_rfl, fun _ => .inl rfl⟩
  · rw [abs_of_pos hx]
    rcases hv with rfl | rfl
    · exact ⟨le_rfl, fun _ => .inr (.inr (.inl ⟨hx, rfl⟩))⟩
    · rw [abs_of_nonpos (a := -M - x) (by omega)]
      rcases abs_cases (M - x) with ⟨h, -⟩ | ⟨h, -⟩ <;> rw [h] <;> omega

/-- An exact result `x / 2^d` with the sign `neg`, rounded: no finite value is nearer, and of two equally near the
fraction is even. -/
theorem signed_roundBits_nearest {neg : Bool} {x : Int} {d : Nat} (hneg : x < 0 → neg = true)
    (hpos : 0 < x → neg = false)
    (h : roundBits x.natAbs d < infBits) {q : F32} (hq : isFinite q = true) :
    |value (signed neg (roundBits x.natAbs d)) * 2 ^ d - x| ≤ |value q * 2 ^ d - x| ∧
      (|value (signed neg (roundBits x.natAbs d)) * 2 ^ d - x| = |value q * 2 ^ d - x| →
        value q ≠ value (signed neg (roundBits x.natAbs d)) →
        fracField (signed neg (roundBits x.natAbs d)) % 2 = 0) := by
  obtain ⟨c, hc, -, hvalue⟩ := value_eq_of_isFinite hq
  obtain ⟨hle, htie⟩ := roundBits_nearest x.natAbs d h c
  have hfrac : roundBits x.natAbs d % 2 = 0 → fracField (signed neg (roundBits x.natAbs d)) % 2 = 0 := by
    rw [fracField_signed (roundBits_lt _ _)]
    omega
  have hscale : ∀ m : Nat, (0 : Int) ≤ m * 2 ^ d := fun m => by positivity
  have hother : value q * 2 ^ d = (bitsMagnitude c * 2 ^ d : Int) ∨
      value q * 2 ^ d = -(bitsMagnitude c * 2 ^ d : Int) := by
    rcases hvalue with h | h <;> rw [h]
    · exact .inl rfl
    · exact .inr (neg_mul _ _)
  have hresult : |value (signed neg (roundBits x.natAbs d)) * 2 ^ d - x| =
      |(bitsMagnitude (roundBits x.natAbs d) * 2 ^ d : Int) - (|x|)| := by
    rw [value_signed (roundBits_lt _ _)]
    rcases lt_trichotomy x 0 with hx | hx | hx
    · rw [hneg hx, abs_of_neg hx, ← abs_neg, if_pos rfl]
      congr 1
      ring
    · subst hx
      rw [Int.natAbs_zero, roundBits_zero]
      cases neg <;> simp [bitsMagnitude]
    · rw [hpos hx, abs_of_pos hx]
      rfl
  have hnat : ((x.natAbs : Nat) : Int) = |x| := Int.natCast_natAbs x
  rw [hnat] at hle htie
  obtain ⟨hfar, hsign⟩ := abs_sub_of_signs (x := x) (hscale (bitsMagnitude c)) hother
  rw [hresult]
  refine ⟨hle.trans hfar, fun heq hne => hfrac ?_⟩
  have heq₁ : |(bitsMagnitude (roundBits x.natAbs d) * 2 ^ d : Int) - (|x|)| =
      |(bitsMagnitude c * 2 ^ d : Int) - (|x|)| :=
    le_antisymm hle (heq ▸ hfar)
  have heq₂ : |(bitsMagnitude c * 2 ^ d : Int) - (|x|)| = |value q * 2 ^ d - x| := heq₁.symm.trans heq
  by_cases hsame : bitsMagnitude c = bitsMagnitude (roundBits x.natAbs d)
  · have hdiffer : value q * 2 ^ d ≠ value (signed neg (roundBits x.natAbs d)) * 2 ^ d := fun h =>
      hne (mul_right_cancel₀ (by positivity) h)
    rw [value_signed (roundBits_lt _ _), ← hsame] at hdiffer
    rcases hsign heq₂ with rfl | hzero | ⟨hx, hv⟩ | ⟨hx, hv⟩
    · rw [Int.natAbs_zero, roundBits_zero]
    · have hzero' : (bitsMagnitude c : Int) = 0 := (mul_eq_zero.mp hzero).resolve_right (by positivity)
      rcases hvalue with h | h <;> simp [h, hzero'] at hdiffer
    · rw [hpos hx] at hdiffer
      exact absurd hv hdiffer
    · rw [hneg hx, if_pos rfl, neg_mul] at hdiffer
      exact absurd hv hdiffer
  · exact htie heq₁ hsame

end Sys2Proof.Machine

/-! The operations of the default binary32 arithmetic (42_highpass.md R142 to R145, R148, R153): sums and products on
finite operands and beyond them, conversion from an integer, and the constant `ALPHA_BITS`. -/

namespace Sys2Proof.Machine

/-! ## Sums on finite operands (R142) -/

section
variable {a b : F32}

theorem signed_true_zero : signed true 0 = 0x80000000 := rfl
theorem signed_false_zero : signed false 0 = 0 := rfl

theorem zero_lt_two_pow : (0 : Nat) < 2 ^ 31 := by decide

theorem value_signed_zero (neg : Bool) : value (signed neg 0) = 0 := by
  rw [value_signed zero_lt_two_pow]
  cases neg <;> rfl

theorem fadd_of_isFinite (ha : isFinite a = true) (hb : isFinite b = true) :
    fadd a b = roundSum a b (value a + value b) := by
  simp [fadd, isNan_of_isFinite ha, isNan_of_isFinite hb, isInf_of_isFinite ha, isInf_of_isFinite hb]

theorem roundSum_zero : roundSum a b 0 = signed (isNegZero a && isNegZero b) 0 := if_pos rfl

theorem roundSum_of_ne {x : Int} (hx : x ≠ 0) : roundSum a b x = signed (decide (x < 0)) (roundBits x.natAbs 0) :=
  if_neg hx

theorem isNegZero_iff : isNegZero a = true ↔ a = 0x80000000 := by
  rw [isNegZero, beq_iff_eq, signed_true_zero]

/-- A sum of finite operands is finite as long as its rounded bits are below those of infinity. -/
theorem isFinite_fadd_iff (ha : isFinite a = true) (hb : isFinite b = true) :
    isFinite (fadd a b) = true ↔ roundBits (value a + value b).natAbs 0 < infBits := by
  rw [fadd_of_isFinite ha hb]
  by_cases hx : value a + value b = 0
  · rw [hx, roundSum_zero, Int.natAbs_zero, roundBits_zero, isFinite_signed (Nat.zero_le _)]
  · rw [roundSum_of_ne hx, isFinite_signed (roundBits_le _ _)]

theorem isInf_fadd_iff (ha : isFinite a = true) (hb : isFinite b = true) :
    isInf (fadd a b) = true ↔ roundBits (value a + value b).natAbs 0 = infBits := by
  rw [fadd_of_isFinite ha hb]
  by_cases hx : value a + value b = 0
  · rw [hx, roundSum_zero, Int.natAbs_zero, roundBits_zero, isInf_signed (Nat.zero_le _)]
  · rw [roundSum_of_ne hx, isInf_signed (roundBits_le _ _)]

theorem fadd_nearest (ha : isFinite a = true) (hb : isFinite b = true) (h : isFinite (fadd a b) = true) {q : F32}
    (hq : isFinite q = true) :
    |value (fadd a b) - (value a + value b)| ≤ |value q - (value a + value b)| ∧
      (|value (fadd a b) - (value a + value b)| = |value q - (value a + value b)| → value q ≠ value (fadd a b) →
        fracField (fadd a b) % 2 = 0) := by
  rw [isFinite_fadd_iff ha hb] at h
  rw [fadd_of_isFinite ha hb]
  generalize value a + value b = x at *
  by_cases hx : x = 0
  · subst hx
    rw [roundSum_zero, value_signed_zero, fracField_signed zero_lt_two_pow]
    simp
  · rw [roundSum_of_ne hx]
    have hnearest := signed_roundBits_nearest (neg := decide (x < 0)) (by simp) (by simp; omega) h hq
    simpa only [pow_zero, mul_one] using hnearest

/-! ## Products on finite operands (R144) -/

theorem isZero_iff (ha : isFinite a = true) : isZero a = true ↔ value a = 0 := by
  rw [isZero, ha, Bool.true_and, beq_iff_eq, ← natAbs_value, Int.natAbs_eq_zero]

theorem fmul_of_isFinite (ha : isFinite a = true) (hb : isFinite b = true) :
    fmul a b = signed (a.msb ^^ b.msb) (roundBits (value a * value b).natAbs 149) := by
  rw [Int.natAbs_mul, natAbs_value, natAbs_value]
  simp [fmul, isNan_of_isFinite ha, isNan_of_isFinite hb, isInf_of_isFinite ha, isInf_of_isFinite hb]

theorem value_nonpos_of_msb (h : a.msb = true) : value a ≤ 0 := by
  rw [value_of_msb h]
  omega

theorem value_nonneg_of_not_msb (h : a.msb = false) : 0 ≤ value a := by
  rw [value_of_not_msb h]
  omega

/-- The sign of a product is the exclusive or of the operands' signs. -/
theorem msb_xor_of_mul_sign : (value a * value b < 0 → (a.msb ^^ b.msb) = true) ∧
    (0 < value a * value b → (a.msb ^^ b.msb) = false) := by
  cases ha : a.msb <;> cases hb : b.msb
  · have h := mul_nonneg (value_nonneg_of_not_msb ha) (value_nonneg_of_not_msb hb)
    exact ⟨fun h' => absurd h' (not_lt.mpr h), fun _ => rfl⟩
  · have h := mul_nonpos_of_nonneg_of_nonpos (value_nonneg_of_not_msb ha) (value_nonpos_of_msb hb)
    exact ⟨fun _ => rfl, fun h' => absurd h' (not_lt.mpr h)⟩
  · have h := mul_nonpos_of_nonpos_of_nonneg (value_nonpos_of_msb ha) (value_nonneg_of_not_msb hb)
    exact ⟨fun _ => rfl, fun h' => absurd h' (not_lt.mpr h)⟩
  · have h := mul_nonneg_of_nonpos_of_nonpos (value_nonpos_of_msb ha) (value_nonpos_of_msb hb)
    exact ⟨fun h' => absurd h' (not_lt.mpr h), fun _ => rfl⟩

theorem isFinite_fmul_iff (ha : isFinite a = true) (hb : isFinite b = true) :
    isFinite (fmul a b) = true ↔ roundBits (value a * value b).natAbs 149 < infBits := by
  rw [fmul_of_isFinite ha hb, isFinite_signed (roundBits_le _ _)]

theorem fmul_nearest (ha : isFinite a = true) (hb : isFinite b = true) (h : isFinite (fmul a b) = true) {q : F32}
    (hq : isFinite q = true) :
    |value (fmul a b) * 2 ^ 149 - value a * value b| ≤ |value q * 2 ^ 149 - value a * value b| ∧
      (|value (fmul a b) * 2 ^ 149 - value a * value b| = |value q * 2 ^ 149 - value a * value b| →
        value q ≠ value (fmul a b) → fracField (fmul a b) % 2 = 0) := by
  obtain ⟨hneg, hpos⟩ := msb_xor_of_mul_sign (a := a) (b := b)
  rw [isFinite_fmul_iff ha hb] at h
  rw [fmul_of_isFinite ha hb]
  exact signed_roundBits_nearest hneg hpos h hq

end

/-- Settles O47: both operations round the exact result's magnitude and keep its sign. -/
theorem addAndMultiplyRoundToNearestEven : Obligations.AddAndMultiplyRoundToNearestEven := by
  unfold Obligations.AddAndMultiplyRoundToNearestEven
  intro a b q ha hb hq
  exact ⟨fun h => fadd_nearest ha hb h hq, fun h => fmul_nearest ha hb h hq⟩

/-! ## Overflow, zeros, infinities and NaNs (R142 to R144) -/

/-- `2^128 - 2^103` in units of `2^-149`. -/
theorem overflow_threshold : (2 ^ 277 - 2 ^ 252 : Int) = (2 ^ 25 - 1) * 2 ^ 252 := by
  rw [show 277 = 25 + 252 from rfl, pow_add]
  ring

theorem roundBits_natAbs_eq_infBits_iff (x : Int) (d : Nat) :
    roundBits x.natAbs d = infBits ↔ (2 ^ 277 - 2 ^ 252 : Int) * 2 ^ d ≤ |x| := by
  have hcast : (2 ^ 277 - 2 ^ 252 : Int) * 2 ^ d = (((2 ^ 25 - 1) * (2 ^ 252 * 2 ^ d) : Nat) : Int) := by
    rw [overflow_threshold, Nat.cast_mul, Nat.cast_mul, Nat.cast_pow, Nat.cast_pow, mul_assoc]
    rfl
  rw [roundBits_eq_infBits_iff, hcast, ← Int.natCast_natAbs, Nat.cast_le]

theorem isNan_nanOf (op : NumOp) (a b : F32) : isNan (nanOf op a b) = true := by
  have hlt := (Config.freeNan op a b).2.isLt
  rw [nanOf]
  apply isNan_signed
  · omega
  · rw [infBits_eq]
    omega

section
variable {a b : F32}

theorem isFinite_false_of_isInf (h : isInf a = true) : isFinite a = false := by
  simp_all [isInf, isFinite]

theorem isZero_of_isInf (h : isInf a = true) : isZero a = false := by
  rw [isZero, isFinite_false_of_isInf h, Bool.false_and]

theorem fadd_of_isNan (h : isNan a = true ∨ isNan b = true) : fadd a b = nanOf .fadd a b :=
  if_pos (by simpa using h)

theorem fmul_of_isNan (h : isNan a = true ∨ isNan b = true) : fmul a b = nanOf .fmul a b := by
  refine if_pos ?_
  rcases h with h | h <;> simp [h]

theorem fadd_of_isInf_of_isInf (ha : isInf a = true) (hb : isInf b = true) :
    fadd a b = if a = b then a else nanOf .fadd a b := by
  simp [fadd, ha, hb, isNan_of_isInf ha, isNan_of_isInf hb]

theorem fadd_of_isInf_left (ha : isInf a = true) (hb : isFinite b = true) : fadd a b = a := by
  simp [fadd, ha, isNan_of_isInf ha, isNan_of_isFinite hb, isInf_of_isFinite hb]

theorem fadd_of_isInf_right (ha : isFinite a = true) (hb : isInf b = true) : fadd a b = b := by
  simp [fadd, hb, isNan_of_isInf hb, isNan_of_isFinite ha, isInf_of_isFinite ha]

theorem fmul_of_isInf_of_zero (ha : isInf a = true) (hb : isFinite b = true) (hzero : value b = 0) :
    fmul a b = nanOf .fmul a b ∧ fmul b a = nanOf .fmul b a := by
  have hz := (isZero_iff hb).mpr hzero
  exact ⟨if_pos (by simp [ha, hz]), if_pos (by simp [ha, hz])⟩

theorem fmul_of_isInf_left (ha : isInf a = true) (hb : isFinite b = true) (hne : value b ≠ 0) :
    fmul a b = signed (a.msb ^^ b.msb) infBits := by
  have hz : isZero b = false := Bool.eq_false_iff.mpr (mt (isZero_iff hb).mp hne)
  simp [fmul, ha, hz, isNan_of_isInf ha, isNan_of_isFinite hb, isInf_of_isFinite hb]

theorem fmul_of_isInf_right (ha : isInf a = true) (hb : isFinite b = true) (hne : value b ≠ 0) :
    fmul b a = signed (a.msb ^^ b.msb) infBits := by
  have hz : isZero b = false := Bool.eq_false_iff.mpr (mt (isZero_iff hb).mp hne)
  simp [fmul, ha, hz, isNan_of_isInf ha, isNan_of_isFinite hb, isInf_of_isFinite hb, Bool.xor_comm]

theorem fmul_of_isInf_of_isInf (ha : isInf a = true) (hb : isInf b = true) :
    fmul a b = signed (a.msb ^^ b.msb) infBits := by
  simp [fmul, ha, hb, isNan_of_isInf ha, isNan_of_isInf hb, isZero_of_isInf ha, isZero_of_isInf hb]

theorem isInf_signed_infBits (neg : Bool) : isInf (signed neg infBits) = true := (isInf_signed le_rfl).mpr rfl

theorem msb_signed_infBits (neg : Bool) : (signed neg infBits).msb = neg := msb_signed (by decide)

theorem msb_fadd_of_isInf (ha : isFinite a = true) (hb : isFinite b = true) (h : isInf (fadd a b) = true) :
    (fadd a b).msb = true ↔ value a + value b < 0 := by
  have hne : value a + value b ≠ 0 := by
    intro hx
    rw [isInf_fadd_iff ha hb, hx, Int.natAbs_zero, roundBits_zero] at h
    cases h
  rw [fadd_of_isFinite ha hb, roundSum_of_ne hne, msb_signed (roundBits_lt _ _), decide_eq_true_iff]

theorem fadd_of_zero_sum (ha : isFinite a = true) (hb : isFinite b = true) (hx : value a + value b = 0) :
    fadd a b = if a = 0x80000000 ∧ b = 0x80000000 then 0x80000000 else 0 := by
  rw [fadd_of_isFinite ha hb, hx, roundSum_zero]
  by_cases hneg : a = 0x80000000 ∧ b = 0x80000000
  · rw [if_pos hneg, isNegZero_iff.mpr hneg.1, isNegZero_iff.mpr hneg.2]
    rfl
  · have hand : (isNegZero a && isNegZero b) = false := by
      rw [Bool.eq_false_iff, ne_eq, Bool.and_eq_true, isNegZero_iff, isNegZero_iff]
      exact hneg
    rw [if_neg hneg, hand]
    rfl

theorem fmul_of_zero_product (ha : isFinite a = true) (hb : isFinite b = true) (hx : value a * value b = 0) :
    fmul a b = if a.msb ^^ b.msb then 0x80000000 else 0 := by
  rw [fmul_of_isFinite ha hb, hx, Int.natAbs_zero, roundBits_zero]
  cases a.msb ^^ b.msb <;> rfl

end

/-- Settles O48: clause by clause, each a lemma on the branch of `fadd` or `fmul` it speaks of. -/
theorem addAndMultiplyOverflowToInfinity : Obligations.AddAndMultiplyOverflowToInfinity := by
  unfold Obligations.AddAndMultiplyOverflowToInfinity
  intro a b
  refine ⟨fun ha hb => ⟨?addInf, msb_fadd_of_isInf ha hb, fadd_of_zero_sum ha hb, ?mulInf, ?mulSign,
    fmul_of_zero_product ha hb⟩, ?nan, ?opposite, ?same, ?infAdd, ?infMulZero, ?infMul, ?infMulInf, rfl⟩
  case addInf =>
    rw [isInf_fadd_iff ha hb, roundBits_natAbs_eq_infBits_iff, pow_zero, mul_one]
  case mulInf =>
    rw [fmul_of_isFinite ha hb, isInf_signed (roundBits_le _ _), roundBits_natAbs_eq_infBits_iff]
  case mulSign => rw [fmul_of_isFinite ha hb, msb_signed (roundBits_lt _ _)]
  case nan =>
    intro h
    rw [fadd_of_isNan h, fmul_of_isNan h]
    exact ⟨isNan_nanOf .., isNan_nanOf ..⟩
  case opposite =>
    intro ha hb hne
    rw [fadd_of_isInf_of_isInf ha hb, if_neg hne]
    exact isNan_nanOf ..
  case same =>
    intro ha hb heq
    rw [fadd_of_isInf_of_isInf ha hb, if_pos heq]
  case infAdd => exact fun ha hb => ⟨fadd_of_isInf_left ha hb, fadd_of_isInf_right hb ha⟩
  case infMulZero =>
    intro ha hb hzero
    obtain ⟨hab, hba⟩ := fmul_of_isInf_of_zero ha hb hzero
    rw [hab, hba]
    exact ⟨isNan_nanOf .., isNan_nanOf ..⟩
  case infMul =>
    intro ha hb hne
    rw [fmul_of_isInf_left ha hb hne, fmul_of_isInf_right ha hb hne]
    exact ⟨isInf_signed_infBits _, msb_signed_infBits _, isInf_signed_infBits _, msb_signed_infBits _⟩
  case infMulInf =>
    intro ha hb
    rw [fmul_of_isInf_of_isInf ha hb]
    exact ⟨isInf_signed_infBits _, msb_signed_infBits _⟩

/-! ## From an integer (R145) -/

section
variable (v : I32)

theorem i2f_eq_signed : i2f v = signed (decide (v.toInt < 0)) (roundBits (v.toInt * 2 ^ 149).natAbs 0) := by
  rw [i2f, Int.natAbs_mul]
  rfl

/-- A 32-bit integer is far below the threshold of overflow. -/
theorem roundBits_i2f_lt : roundBits (v.toInt * 2 ^ 149).natAbs 0 < infBits := by
  have hlt := BitVec.toInt_lt (x := v)
  have hle := BitVec.le_toInt v
  refine lt_of_le_of_ne (roundBits_le _ _) fun h => ?_
  rw [roundBits_eq_infBits_iff] at h
  omega

theorem isFinite_i2f : isFinite (i2f v) = true := by
  rw [i2f_eq_signed, isFinite_signed (roundBits_le _ _)]
  exact roundBits_i2f_lt v

theorem i2f_nearest {q : F32} (hq : isFinite q = true) :
    |value (i2f v) - v.toInt * 2 ^ 149| ≤ |value q - v.toInt * 2 ^ 149| ∧
      (|value (i2f v) - v.toInt * 2 ^ 149| = |value q - v.toInt * 2 ^ 149| → value q ≠ value (i2f v) →
        fracField (i2f v) % 2 = 0) := by
  rw [i2f_eq_signed]
  have hnearest := signed_roundBits_nearest (neg := decide (v.toInt < 0)) (x := v.toInt * 2 ^ 149) (d := 0)
    (fun h => decide_eq_true (by omega)) (fun h => decide_eq_false (by omega)) (roundBits_i2f_lt v) hq
  simpa only [pow_zero, mul_one] using hnearest

/-- Up to `2^24` the bits dropped of the integer are zeros. -/
theorem two_pow_dropBits_dvd {m : Nat} (hm : m ≤ 2 ^ 24) : 2 ^ dropBits (m * 2 ^ 149) 0 ∣ m * 2 ^ 149 := by
  by_cases hdrop : dropBits (m * 2 ^ 149) 0 ≤ 149
  · exact Dvd.dvd.mul_left (pow_dvd_pow 2 hdrop) m
  · have hfloor := two_pow_mul_le_of_drop (m * 2 ^ 149) 0 (by omega)
    have hlarge : 2 ^ 150 ≤ 2 ^ dropBits (m * 2 ^ 149) 0 := Nat.pow_le_pow_right (by decide) (by omega)
    obtain rfl : m = 2 ^ 24 := by omega
    have hlog : dropBits (2 ^ 24 * 2 ^ 149) 0 = 150 := by decide
    rw [hlog]
    decide

theorem value_i2f (hv : |v.toInt| ≤ 2 ^ 24) : value (i2f v) = v.toInt * 2 ^ 149 := by
  have hm : v.toInt.natAbs ≤ 2 ^ 24 := by
    rw [← Int.natCast_natAbs] at hv
    exact_mod_cast hv
  have hnat : (v.toInt * 2 ^ 149).natAbs = v.toInt.natAbs * 2 ^ 149 := by rw [Int.natAbs_mul]; rfl
  have hexact : bitsMagnitude (roundBits (v.toInt * 2 ^ 149).natAbs 0) = v.toInt.natAbs * 2 ^ 149 := by
    have hbits := bitsMagnitude_roundBits _ 0 (roundBits_i2f_lt v)
    rw [hnat] at hbits ⊢
    obtain ⟨j, hj⟩ := two_pow_dropBits_dvd hm
    obtain ⟨hle, -⟩ := roundHalfEven_nearest (v.toInt.natAbs * 2 ^ 149) (dropBits (v.toInt.natAbs * 2 ^ 149) 0) j
    have hzero : (j : Int) * 2 ^ dropBits (v.toInt.natAbs * 2 ^ 149) 0 - (v.toInt.natAbs * 2 ^ 149 : Nat) = 0 := by
      rw [mul_comm, sub_eq_zero]
      exact_mod_cast hj.symm
    rw [hzero, abs_zero] at hle
    have hsame := sub_eq_zero.mp (abs_eq_zero.mp (le_antisymm hle (abs_nonneg _)))
    rw [pow_zero, mul_one] at hbits
    rw [hbits]
    exact_mod_cast hsame
  rw [i2f_eq_signed, value_signed (roundBits_lt _ _), hexact]
  by_cases hneg : v.toInt < 0
  · rw [decide_eq_true hneg, if_pos rfl]
    omega
  · rw [decide_eq_false hneg, if_neg Bool.false_ne_true]
    omega

theorem f2i_i2f (hv : |v.toInt| ≤ 2 ^ 24) : f2i (i2f v) = v := by
  have hbound := abs_le.mp hv
  apply BitVec.eq_of_toInt_eq
  rw [f2i_toInt_of_isFinite (isFinite_i2f v), value_i2f v hv, if_neg (by omega), if_neg (by omega),
    Int.mul_tdiv_cancel _ (by decide)]

end

/-- Settles O45: the integer is rounded as an exact result; up to `2^24` nothing is rounded away. -/
theorem smallIntegersConvertExactly : Obligations.SmallIntegersConvertExactly := by
  unfold Obligations.SmallIntegersConvertExactly
  refine ⟨fun v hv => ⟨isFinite_i2f v, value_i2f v hv, f2i_i2f v hv⟩, rfl, fun v q hq => ?_⟩
  obtain ⟨hle, htie⟩ := i2f_nearest v hq
  exact ⟨isFinite_i2f v, hle, htie⟩

end Sys2Proof.Machine

/-! The filter step in the default arithmetic (42_highpass.md R147, R149, R153), the bound of the accumulators, and
the built configuration with `ALPHA_BITS` (00_scope.md R8 to R11, 42_highpass.md R148). -/

namespace Sys2Proof.Machine

/-! ## The inverted sign bit of `fsub` (R143) -/

section
variable (b : F32)

theorem expField_neg : expField (b ^^^ 0x80000000) = expField b := by
  rw [expField, BitVec.toNat_xor, Nat.xor_div_two_pow, Nat.xor_mod_two_pow]
  exact Nat.xor_zero _

theorem fracField_neg : fracField (b ^^^ 0x80000000) = fracField b := by
  rw [fracField, BitVec.toNat_xor, Nat.xor_mod_two_pow]
  exact Nat.xor_zero _

theorem isFinite_neg : isFinite (b ^^^ 0x80000000) = isFinite b := by
  rw [isFinite, expField_neg, isFinite]

theorem value_neg : value (b ^^^ 0x80000000) = -value b := by
  have hmagnitude : magnitude (b ^^^ 0x80000000) = magnitude b := by
    rw [magnitude, expField_neg, fracField_neg, magnitude]
  have hmsb : (b ^^^ 0x80000000).msb = !b.msb := by
    rw [BitVec.msb_xor]
    exact Bool.xor_true _
  rw [value, value, hmagnitude, hmsb]
  cases b.msb <;> simp

end

/-! ## A rounded result keeps within a finite bound that holds for the exact one -/

/-- The greatest finite magnitude. -/
theorem bitsMagnitude_le {b : Nat} (hb : b < infBits) : bitsMagnitude b ≤ (2 ^ 24 - 1) * 2 ^ 253 := by
  rw [infBits_eq] at hb
  have hfrac : b % 2 ^ 23 < 2 ^ 23 := Nat.mod_lt b (by decide)
  rw [bitsMagnitude]
  split_ifs
  · omega
  · exact Nat.mul_le_mul (by omega) (Nat.pow_le_pow_right (by decide) (by omega))

theorem roundBits_lt_infBits {x : Int} {d : Nat} {g : F32} (hg : isFinite g = true) (hx : |x| ≤ value g * 2 ^ d) :
    roundBits x.natAbs d < infBits := by
  refine lt_of_le_of_ne (roundBits_le _ _) fun h => ?_
  obtain ⟨b, hb, hmagnitude, -⟩ := value_eq_of_isFinite hg
  have hgreatest := bitsMagnitude_le hb
  have hvalue := natAbs_value g
  have hlarge := (roundBits_natAbs_eq_infBits_iff x d).mp h
  rw [overflow_threshold] at hlarge
  have hless : value g < (2 ^ 25 - 1) * 2 ^ 252 := by omega
  exact absurd (hlarge.trans hx) (not_le.mpr (mul_lt_mul_of_pos_right hless (by positivity)))

/-- A value as near to `x` as `g` and `-g` are lies between them if `x` does. -/
theorem abs_le_of_nearer {x y g : Int} (hx : |x| ≤ g) (hpos : |y - x| ≤ |g - x|) (hneg : |y - x| ≤ |-g - x|) :
    |y| ≤ g := by
  obtain ⟨hlo, hhi⟩ := abs_le.mp hx
  rw [abs_of_nonneg (a := g - x) (by omega)] at hpos
  rw [abs_of_nonpos (a := -g - x) (by omega)] at hneg
  rw [abs_le] at *
  omega

section
variable {a b g : F32}

theorem fadd_within (ha : isFinite a = true) (hb : isFinite b = true) (hg : isFinite g = true)
    (hx : |value a + value b| ≤ value g) : isFinite (fadd a b) = true ∧ |value (fadd a b)| ≤ value g := by
  have hfinite : isFinite (fadd a b) = true :=
    (isFinite_fadd_iff ha hb).mpr (roundBits_lt_infBits hg (by rwa [pow_zero, mul_one]))
  obtain ⟨hpos, -⟩ := fadd_nearest ha hb hfinite hg
  obtain ⟨hneg, -⟩ := fadd_nearest ha hb hfinite ((isFinite_neg g).trans hg)
  rw [value_neg] at hneg
  exact ⟨hfinite, abs_le_of_nearer hx hpos hneg⟩

theorem fsub_within (ha : isFinite a = true) (hb : isFinite b = true) (hg : isFinite g = true)
    (hx : |value a - value b| ≤ value g) : isFinite (fsub a b) = true ∧ |value (fsub a b)| ≤ value g := by
  apply fadd_within ha ((isFinite_neg b).trans hb) hg
  rwa [value_neg, ← sub_eq_add_neg]

theorem fmul_within (ha : isFinite a = true) (hb : isFinite b = true) (hg : isFinite g = true)
    (hx : |value a * value b| ≤ value g * 2 ^ 149) : isFinite (fmul a b) = true ∧ |value (fmul a b)| ≤ value g := by
  have hfinite : isFinite (fmul a b) = true := (isFinite_fmul_iff ha hb).mpr (roundBits_lt_infBits hg hx)
  obtain ⟨hpos, -⟩ := fmul_nearest ha hb hfinite hg
  obtain ⟨hneg, -⟩ := fmul_nearest ha hb hfinite ((isFinite_neg g).trans hg)
  rw [value_neg, neg_mul] at hneg
  have hscaled := abs_le_of_nearer hx hpos hneg
  rw [abs_mul, abs_of_pos (a := (2 ^ 149 : Int)) (by positivity)] at hscaled
  exact ⟨hfinite, le_of_mul_le_mul_right hscaled (by positivity)⟩

end

/-- One filter step with the default numerics (R147). -/
theorem filtered_binary32 (filt : F32) (last v : I32) :
    filtered binary32 filt last v = fmul 0x3F7EB852 (fsub (fadd filt (i2f v)) (i2f last)) := by
  rw [filtered, binary32]

/-! ## The filter step at zero (R153) -/

/-- Adding `+0` gives an operand of the same value. -/
theorem value_fadd_zero {b : F32} (hb : isFinite b = true) :
    isFinite (fadd 0 b) = true ∧ value (fadd 0 b) = value b := by
  have hzero : value 0 = 0 := by decide
  have hfinite : isFinite (fadd 0 b) = true := by
    rw [isFinite_fadd_iff (by decide) hb, hzero, zero_add]
    obtain ⟨g, hg, hle⟩ : ∃ g, isFinite g = true ∧ |value b| ≤ value g * 2 ^ 0 := by
      rcases abs_choice (value b) with h | h
      · exact ⟨b, hb, by rw [h, pow_zero, mul_one]⟩
      · exact ⟨b ^^^ 0x80000000, (isFinite_neg b).trans hb, by rw [h, value_neg, pow_zero, mul_one]⟩
    exact roundBits_lt_infBits hg hle
  obtain ⟨hnear, -⟩ := fadd_nearest (by decide) hb hfinite hb
  rw [hzero, zero_add, sub_self, abs_zero] at hnear
  exact ⟨hfinite, sub_eq_zero.mp (abs_eq_zero.mp (le_antisymm hnear (abs_nonneg _)))⟩

/-- `+0 + b` is never `-0`: an exactly zero sum is `-0` for two `-0` only. -/
theorem fadd_zero_ne_neg_zero {b : F32} (hb : isFinite b = true) : fadd 0 b ≠ 0x80000000 := by
  intro h
  obtain ⟨-, hvalue⟩ := value_fadd_zero hb
  have hsum : value 0 + value b = 0 := by
    rw [← hvalue, h]
    decide
  rw [fadd_of_zero_sum (by decide) hb hsum, if_neg fun h => absurd h.1 (by decide)] at h
  exact absurd h (by decide)

theorem fsub_fadd_zero {b : F32} (hb : isFinite b = true) : fsub (fadd 0 b) b = 0 := by
  obtain ⟨hfinite, hvalue⟩ := value_fadd_zero hb
  have hsum : value (fadd 0 b) + value (b ^^^ 0x80000000) = 0 := by rw [hvalue, value_neg, add_neg_cancel]
  rw [fsub, fadd_of_zero_sum hfinite ((isFinite_neg b).trans hb) hsum, if_neg fun h => fadd_zero_ne_neg_zero hb h.1]

/-- Settles O49: the input cancels exactly, and a positive factor keeps `+0`. -/
theorem zeroInputKeepsTheFilterAtZero : Obligations.ZeroInputKeepsTheFilterAtZero := by
  unfold Obligations.ZeroInputKeepsTheFilterAtZero
  intro v
  have hscaled : fmul 0x3F7EB852 0 = 0 := by
    rw [fmul_of_zero_product (by decide) (by decide) (by decide)]
    decide
  rw [hpfStep, filtered_binary32, fsub_fadd_zero (isFinite_i2f v), hscaled]

/-! ## The bound of the accumulators (R149) -/

theorem abs_value_eq (f : F32) : |value f| = magnitude f := by rw [← natAbs_value, Int.natCast_natAbs]

theorem abs_value_le {m : Nat} {f : F32} (hf : magnitude f ≤ m * 2 ^ 149) : |value f| ≤ m * 2 ^ 149 := by
  rw [abs_value_eq]
  exact_mod_cast hf

/-- The value of the conversion of a corrected value. -/
theorem value_i2f_of_inCorrected {v : I32} (hv : InCorrected v.toInt) : value (i2f v) = v.toInt * 2 ^ 149 :=
  value_i2f v (abs_le.mpr (by obtain ⟨hlo, hhi⟩ := hv; omega))

/-- The bound is inductive: `16693330 * (26100000 + 2 * 65536) <= 26100000 * 2^24`, with both sums even and so exact
above `2^24`. -/
theorem filtered_within {filt : F32} {last v : I32} (hfilt : FiniteWithin 26100000 filt)
    (hlast : InCorrected last.toInt)
    (hv : InCorrected v.toInt) : FiniteWithin 26100000 (filtered binary32 filt last v) := by
  obtain ⟨hfinite, hbound⟩ := hfilt
  have hfilt' := abs_le.mp (abs_value_le hbound)
  have hinput := value_i2f_of_inCorrected hv
  have hprevious := value_i2f_of_inCorrected hlast
  obtain ⟨hvlo, hvhi⟩ := hv
  obtain ⟨hllo, hlhi⟩ := hlast
  have hsum : value (i2f 26165536) = 26165536 * 2 ^ 149 := by decide
  have hdifference : value (i2f 26231072) = 26231072 * 2 ^ 149 := by decide
  have hresult : value (i2f 26100000) = 26100000 * 2 ^ 149 := by decide
  have halpha : value 0x3F7EB852 = 16693330 * 2 ^ 125 := by decide
  obtain ⟨haddFinite, hadd⟩ := fadd_within hfinite (isFinite_i2f v) (isFinite_i2f 26165536) (by
    rw [hsum, hinput, abs_le]
    omega)
  obtain ⟨hsubFinite, hsub⟩ := fsub_within haddFinite (isFinite_i2f last) (isFinite_i2f 26231072) (by
    rw [hdifference, hprevious, abs_le]
    rw [hsum, abs_le] at hadd
    omega)
  obtain ⟨hmulFinite, hmul⟩ := fmul_within (a := 0x3F7EB852) (by decide) hsubFinite (isFinite_i2f 26100000) (by
    rw [hresult, halpha, abs_mul, abs_of_pos (by decide)]
    rw [hdifference] at hsub
    omega)
  rw [filtered_binary32]
  refine ⟨hmulFinite, ?_⟩
  rw [hresult, abs_value_eq] at hmul
  exact_mod_cast hmul

/-- Within the bound `f2i` truncates without saturation. -/
theorem abs_f2i_le {f : F32} (hf : FiniteWithin 26100000 f) : |(f2i f).toInt| ≤ 26100000 := by
  obtain ⟨hfinite, hbound⟩ := hf
  have hrange := abs_le.mp (abs_value_le hbound)
  rw [f2i_toInt_of_isFinite hfinite, if_neg (by omega), if_neg (by omega)]
  rw [← Int.natCast_natAbs, Int.natAbs_tdiv]
  have hquotient : (value f).natAbs / 2 ^ 149 ≤ 26100000 := Nat.div_le_of_le_mul (by omega)
  exact_mod_cast hquotient

section
variable {r : Registers build.windowN} {p : Pins} {e : Effect build.windowN}

theorem runFilter_within (hi : r.Inv) (hs : r.ctl.sampling = true) (hb : r.FilterBounded) :
    FiniteWithin 26100000 (r.runFilter build).filt.e ∧ FiniteWithin 26100000 (r.runFilter build).filt.n ∧
      FiniteWithin 26100000 (r.runFilter build).filt.z := by
  obtain ⟨⟨hfe, hfn, hfz⟩, -⟩ := hb
  cases hp : r.cfgHpf with
  | false =>
    rw [runFilter_of_pass r hp]
    exact ⟨hfe, hfn, hfz⟩
  | true =>
    obtain ⟨hce, hcn, hcz⟩ := hi.corrected_range hs
    obtain ⟨hle, hln, hlz⟩ := hi.last_range
    rw [runFilter_of_hpf r hp]
    exact ⟨filtered_within hfe hle hce, filtered_within hfn hln hcn, filtered_within hfz hlz hcz⟩

/-- With `cfg_hpf = 1` the values appended are the new accumulators, truncated. -/
theorem tickOut_within (hi : r.Inv) (hs : r.ctl.sampling = true) (hp : r.cfgHpf = true) (hb : r.FilterBounded) :
    |(r.tickOut build).e.toInt| ≤ 26100000 ∧ |(r.tickOut build).n.toInt| ≤ 26100000 ∧
      |(r.tickOut build).z.toInt| ≤ 26100000 := by
  obtain ⟨hfe, hfn, hfz⟩ := runFilter_within hi hs hb
  rw [runFilter_of_hpf r hp] at hfe hfn hfz
  rw [Registers.tickOut, if_pos hp]
  exact ⟨abs_f2i_le hfe, abs_f2i_le hfn, abs_f2i_le hfz⟩

theorem filterBounded_of_move (hi : r.Inv) (hb : r.FilterBounded) (hm : Move r p e) : e.regs.FilterBounded := by
  cases hm with
  | reset => exact filterBounded_reset
  | held | fatal | warmupWait | delayWait | idle | txMore => exact hb
  | init | warmupGo | calTempOk | calTempErr | sampleOk | sampleErr | delayMore | delayDone | accErr | tempErr =>
    exact ⟨hb.1, nofun⟩
  | finish | encode => exact ⟨hb.1, fun _ _ _ _ => nofun⟩
  | fire hr hc | accOk hr hc | tempCount hr hc | tempOk hr hc | txLast hr hc =>
    exact ⟨hb.1, fun _ => hb.2 (by rw [hc]; rfl)⟩
  | proc hr hc hk =>
    have hs : r.ctl.sampling = true := by rw [hc]; rfl
    refine ⟨runFilter_within hi hs hb, fun _ hp => ?_⟩
    rw [afterProc_cfgHpf] at hp
    rw [afterProc_buf, afterProc_bufIdx]
    exact filledSlots_append hk (hb.2 hs hp) (tickOut_within hi hs hp hb)

end

/-- Settles O58: only `T_PROC` writes an accumulator or fills a slot, and each lane's step keeps the bound. -/
theorem filterStaysBounded : Obligations.FilterStaysBounded := by
  unfold Obligations.FilterStaysBounded
  intro s t hi hb h
  obtain ⟨e, hm, rfl⟩ := step_eq_next h
  exact filterBounded_of_move hi hb hm

/-! ## The built configuration (R8 to R11, R102) -/

/-- Configuration time accepts exactly the legal parameters, and keeps them as given. -/
theorem legalParameters_iff_ofParameters (h : HpfNumerics) (n w d : Nat) : Config.LegalParameters n w d ↔
    ∃ c, Config.ofParameters h n w d = .ok c ∧ c.numerics = h ∧ c.windowN = n ∧ c.warmupUs = w ∧ c.calDelayUs = d := by
  constructor
  · rintro ⟨hlo, hhi, hw, hd⟩
    rw [Config.ofParameters, dif_pos ⟨hlo, hhi⟩, dif_pos hw, dif_pos hd]
    exact ⟨_, rfl, rfl, rfl, rfl, rfl⟩
  · rintro ⟨c, -, -, rfl, rfl, rfl⟩
    exact c.legal

/-- The digits of `n - 1` are the ceiling of the logarithm (10_state.md R35). -/
theorem wrPosWidth_eq_clog {n : Nat} (hn : 1 ≤ n) : Config.wrPosWidth n = max 1 (Nat.clog 2 n) := by
  obtain rfl | hn : n = 1 ∨ 2 ≤ n := by omega
  · rw [Nat.clog_one_right]
    rfl
  · have hle : Nat.clog 2 n ≤ Nat.log2 (n - 1) + 1 := by
      rw [Nat.clog_le_iff_le_pow (by decide)]
      have h : n - 1 < 2 ^ (Nat.log2 (n - 1) + 1) := Nat.lt_log2_self
      omega
    have hlt : Nat.log2 (n - 1) < Nat.clog 2 n := by
      rw [Nat.lt_clog_iff_pow_lt (by decide)]
      have h : 2 ^ Nat.log2 (n - 1) ≤ n - 1 := Nat.log2_self_le (by omega)
      omega
    rw [Config.wrPosWidth]
    omega

/-- Every other finite value is a multiple of the unit of `ALPHA_BITS`, `2^125`, or far below `ALPHA`. -/
theorem alphaBits_nearest_scaled {q : F32} (hq : isFinite q = true) :
    |1000 * value 0x3F7EB852 - 995 * 2 ^ 149| ≤ |1000 * value q - 995 * 2 ^ 149| := by
  have halpha : value 0x3F7EB852 = 16693330 * 2 ^ 125 := by decide
  obtain ⟨b, -, -, hvalue⟩ := value_eq_of_isFinite hq
  rw [halpha, abs_of_nonneg (by decide)]
  rcases dvd_bitsMagnitude_or_lt b 125 with ⟨z, hz⟩ | hsmall
  · obtain ⟨j, hj⟩ : ∃ j : Int, value q = 2 ^ 125 * j := by
      rcases hvalue with h | h
      · exact ⟨z, by rw [h, hz]; push_cast; rfl⟩
      · exact ⟨-z, by rw [h, hz, mul_neg]; push_cast; rfl⟩
    rw [hj, le_abs]
    omega
  · rw [le_abs]
    omega

/-- `ALPHA_BITS` is the binary32 value nearest to `ALPHA` (R148). -/
theorem alphaBits_nearest {q : F32} (hq : isFinite q = true) :
    |(value 0x3F7EB852 : Rat) - 995 / 1000 * 2 ^ 149| ≤ |(value q : Rat) - 995 / 1000 * 2 ^ 149| := by
  have hscale : ∀ x : Int, |(x : Rat) - 995 / 1000 * 2 ^ 149| = |((1000 * x - 995 * 2 ^ 149 : Int) : Rat)| / 1000 := by
    intro x
    rw [← abs_of_pos (a := (1000 : Rat)) (by norm_num), ← abs_div]
    congr 1
    push_cast
    ring
  rw [hscale, hscale, ← Int.cast_abs, ← Int.cast_abs]
  exact div_le_div_of_nonneg_right (Int.cast_le.mpr (alphaBits_nearest_scaled hq)) (by norm_num)

/-- Settles O52: the constants by their definition, the rest clause by clause. -/
theorem builtParametersAreLegal : Obligations.BuiltParametersAreLegal := by
  unfold Obligations.BuiltParametersAreLegal
  exact ⟨⟨rfl, rfl, rfl, rfl, rfl, rfl, rfl, rfl, rfl, rfl, rfl, rfl⟩, ⟨rfl, rfl, rfl, rfl⟩, build.legal, rfl,
    legalParameters_iff_ofParameters, fun c r => ⟨wrPosWidth_eq_clog c.windowN_pos, wrPosBits_toNat r⟩, rfl, by decide,
    fun q hq => alphaBits_nearest hq⟩

end Sys2Proof.Machine
